-- ==== Sys2Proof/Word.lean ====
section
/-! DEFINITION. The words and index types the manual counts in: bytes of the link, the 16-bit wrapping
counters of a basket context, and the numbers of lanes, contexts and banks. -/

namespace Sys2Proof

/-- One byte of the serial link (R163). -/
abbrev Byte := BitVec 8

/-- A 16-bit wrapping counter: revision or incarnation of a basket context (R15). -/
abbrev Counter := BitVec 16

/-- A lane. The value `i` stands for the lane the manual numbers `i + 1` (1 to 8). -/
abbrev LaneNo := Fin 8

/-- A basket context. The value `i` stands for the context the manual numbers `i + 1` (1 to 12). -/
abbrev CtxNo := Fin 12

/-- An offer bank, 0 or 1 (R39). -/
abbrev BankNo := Fin 2

/-- A set of departments: department `n` is bit `n` (R185). -/
abbrev DeptSet := BitVec 64

/-- A set of lanes as the conditions keep it: lane `n` is bit `n`, bit 0 is lane 0 (R185). -/
abbrev LaneSet := BitVec 9

end Sys2Proof
end

