-- ==== Sys2Proof/Syntax.lean ====
section
/-! DEFINITION. The commands of the device: one constructor of `Instr` for each row of
spec/opcode_table.json, with the row's operands. -/

namespace Sys2Proof

/-- A frame of the link without its SOF, LEN and CRC (R163): KIND, LANE, TAG and the payload. -/
structure Frame where
  kind : Byte
  lane : Byte
  tag : Byte
  payload : List Byte
  deriving DecidableEq, Repr

/-- What a request frame carries beside its KIND: the LANE and TAG fields and the payload bytes, which
hold the request's own operands at the offsets of R187. -/
structure Req where
  lane : Byte
  tag : Byte
  payload : List Byte
  deriving DecidableEq, Repr

/-- The frame of a request of the given kind. -/
def Req.frame (r : Req) (kind : Byte) : Frame :=
  { kind := kind, lane := r.lane, tag := r.tag, payload := r.payload }

/-- The two inbound queues (R167): the lane pool and the bulk queue. -/
inductive QueueId where
  | pool
  | bulk
  deriving DecidableEq, Repr

/-- The commands of the device. A lane or bulk request is its TAKE (00_scope, "Taken"): the request frame
`r` leaves its inbound queue and is acted on. The other commands are the link's bytes, the frame
boundaries of the transmitter, the steps of the resolve unit and of the settlement writer, the expiries
of the timers, and the resets. -/
inductive Instr where
  -- lane requests (R186, kinds 0x01 to 0x13)
  | openBasket (r : Req)
  | addLine (r : Req)
  | setQty (r : Req)
  | voidLine (r : Req)
  | override (r : Req)
  | clearOverride (r : Req)
  | presentCoupon (r : Req)
  | withdrawCoupon (r : Req)
  | attachAccount (r : Req)
  | detachAccount (r : Req)
  | redeem (r : Req)
  | cancelRedeem (r : Req)
  | setTracking (r : Req)
  | total (r : Req)
  | finalize (r : Req)
  | voidBasket (r : Req)
  | park (r : Req)
  | recallBasket (r : Req)
  | queryBasket (r : Req)
  -- bulk requests (R186, kinds 0x20 to 0x32)
  | bankBegin (r : Req)
  | offerPut (r : Req)
  | offersClose (r : Req)
  | schedulePut (r : Req)
  | bankCommit (r : Req)
  | bankAbandon (r : Req)
  | authorityLoad (r : Req)
  | authorityRemove (r : Req)
  | authorityClear (r : Req)
  | accountBalance (r : Req)
  | queryAccount (r : Req)
  | queryClaim (r : Req)
  | configure (r : Req)
  | dayOpen (r : Req)
  | clearConditions (r : Req)
  | setMask (r : Req)
  | identify (r : Req)
  | status (r : Req)
  | restart (r : Req)
  -- link
  | unknownKindAnswer (f : Frame)
  | hold (r : Req)
  | frameComplete (b : Byte)
  | lengthFault (b : Byte)
  | gapFault
  | transmitStart
  | transmitEnd
  | renewExpiry (q : QueueId)
  | outputHoldExpiry
  -- resolve unit, quotes, settlement
  | resolveGrant
  | resolutionComplete
  | owedSubtotal (l : LaneNo)
  | settlementFrame (l : LaneNo)
  | settleEnd (l : LaneNo)
  -- timers of baskets and lanes
  | reservationExpiry (c : CtxNo)
  | idleWarning (l : LaneNo)
  | autoPark (l : LaneNo)
  | parkExpiry (c : CtxNo)
  -- resets, and the byte that neither completes nor faults a frame
  | hardReset (straps : BitVec 2)
  | softReset (straps : BitVec 2)
  | byteReceived (b : Byte)
  | resetnLow
  deriving DecidableEq, Repr

end Sys2Proof
end

