-- ==== Sys2Proof/Decode.lean ====
section
/-! DEFINITION. The commands that a word of table bits spells. No row of spec/opcode_table.json gives bits: the
commands are steps of a block, not words of a memory. -/

namespace Sys2Proof

/-- The command spelled by the `nbits` table bits `w`: none, since no row of the table has bits. -/
def decodeTableWord (_nbits _w : Nat) : Option Instr := none

end Sys2Proof
end

