-- ==== Sys2Proof/Config.lean ====
section
/-! DEFINITION. What the manual leaves to the part or leaves open: constants without a body, so that no
proof can rest on a value of theirs. -/

namespace Sys2Proof.Config

/-- The silicon revision IDENTIFY reports (R181, R189): the manual gives its width and no value
(assumption 4). -/
opaque siliconRevision : Byte

/-- The order in which things that one event brings about together take their places in a list, where the
manual names no order (claims on main-queue slots, R169; CONDITION notices of one SET_MASK, R177). The
first argument counts the occasions, the second is the code of the thing; lower ranks go first
(assumption 5). -/
opaque orderRank : Nat → Nat → Nat

end Sys2Proof.Config
end

