-- ==== Sys2Proof/Machine/State.lean ====
section
/-! DEFINITION. The state of the device as plain data, block by block as the manual lists them
(00_scope, "Block diagram"), the reasons a step can stop, and the state right after power-up. Times are
readings of the millisecond time base (R183): a running timer is held as the reading at which it expires. -/

namespace Sys2Proof.Machine

/-! ### Link port (R162 to R165, R171, R173, R174) -/

/-- The receiver (R164): searching for a SOF, or holding the bytes gathered after the SOF, LEN first. -/
inductive Receiver where
  | hunt
  | assemble (got : List Byte)
  deriving DecidableEq, Repr

/-- The kind of the last link fault (R165, R185). -/
inductive FaultKind where
  | none
  | crc
  | length
  | gap
  deriving DecidableEq, Repr

/-- The scope of a HOLD record (R172, R174). -/
inductive HoldScope where
  | full
  | bulk
  deriving DecidableEq, Repr

/-- The output hold state (R174). -/
inductive OutputHold where
  | none
  | full
  | bulk
  deriving DecidableEq, Repr

/-- A HOLD record of the device waiting to be sent (R173): its scope and its time in milliseconds. -/
structure DeviceHold where
  scope : HoldScope
  time : Nat
  deriving DecidableEq, Repr

/-- The eight condition classes (R176). -/
inductive CondClass where
  | linkFault
  | inboundOverrun
  | holdExpired
  | holdCut
  | laneIdle
  | parkExpired
  | bankDrained
  | claimsFull
  deriving DecidableEq, Repr

/-- Where the frame in transmission came from (R171). -/
inductive TxSource where
  | main
  | notice (c : CondClass)
  | deviceHold (h : DeviceHold)
  deriving DecidableEq, Repr

/-- The frame in transmission on TXD (R171): its source and its contents, fixed when it began. -/
structure Transmission where
  source : TxSource
  frame : Frame
  deriving DecidableEq, Repr

/-- The two output queues the transmitter alternates between (R171). -/
inductive OutQueue where
  | main
  | notices
  deriving DecidableEq, Repr

/-- The link port: receiver, transmitter, pending device HOLD records and the output hold. -/
@[ext] structure Link where
  /-- receiver state and bytes gathered (R164) -/
  rx : Receiver
  /-- gap timer (R164) -/
  gap : Option Nat
  /-- last fault kind (R165) -/
  lastFault : FaultKind
  /-- output hold state (R174) -/
  hold : OutputHold
  /-- output hold timer (R174) -/
  holdTimer : Option Nat
  /-- pending device HOLD records, in the order they became pending (R173) -/
  deviceHolds : List DeviceHold
  /-- the frame in transmission, if any (R171) -/
  tx : Option Transmission
  /-- the queue the last frame was sent from, none from a reset until STARTED begins (R171, R182) -/
  lastSent : Option OutQueue
  /-- TXD is held high until this reading after a frame was cut by a reset (R182) -/
  quietUntil : Option Nat
  deriving DecidableEq, Repr

/-! ### Queues (R167 to R173) -/

/-- An inbound queue: its frames in arrival order, its congestion state and its renew timer (R167, R172). -/
structure Inbound where
  frames : List Frame
  congested : Bool
  renew : Option Nat
  deriving DecidableEq, Repr

/-- A claim on a main-queue slot (R169). -/
inductive Claim where
  | laneTake
  | bulkTake
  | stream (l : LaneNo)
  | owed (l : LaneNo)
  deriving DecidableEq, Repr

/-- The main output queue (R168, R169). A frame in transmission is held in `Link.tx` and keeps its slot. -/
@[ext] structure MainQueue where
  /-- frames placed and not yet begun, in transmit order -/
  frames : List Frame
  /-- slots reserved for replies still to come -/
  reserved : Nat
  /-- the slot request list -/
  requests : List Claim
  /-- claims to which a freed slot has been served and that have not used it yet -/
  served : List Claim
  deriving DecidableEq, Repr

/-! ### Configuration (R179) -/

/-- Tracking mode of a lane or of an attached context (R1, R13). -/
inductive Tracking where
  | onDemand
  | tracking
  deriving DecidableEq, Repr

/-- Lane group (R1). -/
inductive Group where
  | a
  | b
  | c
  deriving DecidableEq, Repr

/-- The configuration record (R179). The enabled and group fields of the lane records (R1) are these. -/
structure Configuration where
  /-- lane n is bit n - 1 -/
  enabled : BitVec 8
  groups : Vector Group 8
  groupOrder : List Group
  priority : Option LaneNo
  trackingDefault : Tracking
  poolWatermark : Nat
  bulkWatermark : Nat
  holdTime : Nat
  renewMargin : Nat
  renew : Bool
  release : Bool
  holdThreshold : Nat
  /-- seconds -/
  reservationLifetime : Nat
  /-- seconds, 0 for no idle monitor -/
  idleTime : Nat
  /-- seconds -/
  parkLifetime : Nat
  deriving DecidableEq, Repr

/-! ### Lane controller (R1) -/

/-- The six lane states (R3). -/
inductive LaneState where
  | off
  | idle
  | opened
  | quoting
  | totalled
  | settling
  deriving DecidableEq, Repr

/-- A lane record (R1). -/
structure Lane where
  state : LaneState
  tracking : Tracking
  ctx : Option CtxNo
  idleStage : Nat
  idleTimer : Option Nat
  subtotalOwed : Bool
  passOver : Nat
  /-- the tag of the TOTAL that waits for its QUOTE (R142) -/
  quoteTag : Byte
  deriving DecidableEq, Repr

/-! ### Offer banks (R39, R43, R46) -/

/-- Bank states (R39). -/
inductive BankState where
  | free
  | staging
  | ready
  | current
  | draining
  deriving DecidableEq, Repr

/-- Offer kinds (R43). -/
inductive OfferKind where
  | qtyBreak
  | itemOff
  | deptPercent
  | spendOff
  | pointsBoost
  deriving DecidableEq, Repr

/-- The gate of an offer (R43). -/
inductive Gate where
  | none
  | coupon
  | tierMin (tier : Nat)
  | trade
  deriving DecidableEq, Repr

/-- The target of an offer (R43). -/
inductive Target where
  | item (code : Nat)
  | depts (set : DeptSet)
  deriving DecidableEq, Repr

/-- An offer entry (R43). -/
structure Offer where
  id : Nat
  kind : OfferKind
  target : Target
  gate : Gate
  stackable : Bool
  rank : Nat
  firstDay : Nat
  lastDay : Nat
  threshold : Nat
  value : Nat
  unitLimit : Nat
  deriving DecidableEq, Repr

/-- A points schedule (R46). -/
structure Schedule where
  earn0 : Nat
  earn1 : Nat
  earn2 : Nat
  earn3 : Nat
  redemptionRate : Nat
  minimumRedemption : Nat
  excluded : DeptSet
  deriving DecidableEq, Repr

/-- A bank (R39). -/
structure Bank where
  state : BankState
  generation : Nat
  pins : Nat
  /-- in increasing offer id order -/
  offers : List Offer
  /-- section status: true is CLOSED -/
  closed : Bool
  schedule : Option Schedule
  deriving DecidableEq, Repr

/-! ### Basket lines and coupons (R23, R86) -/

/-- An override on a line (R23). -/
structure Override where
  price : Nat
  supervisor : Nat
  reason : Nat
  deriving DecidableEq, Repr

/-- A line record (R23). -/
structure Line where
  number : Nat
  item : Nat
  dept : Nat
  noOffers : Bool
  qty : Nat
  list : Nat
  floor : Nat
  voided : Bool
  override : Option Override
  deriving DecidableEq, Repr

/-- A coupon's kind with the fields of that kind (R86). -/
inductive CouponKind where
  | offerKey (offer : Nat)
  | storeValue (value minSpend : Nat)
  deriving DecidableEq, Repr

/-- A coupon of a basket (R86). Its position is its place in the list. -/
structure Coupon where
  serial : Nat
  kind : CouponKind
  /-- status: true is ACTIVE, false is DORMANT (R87) -/
  active : Bool
  deriving DecidableEq, Repr

/-! ### Quotes (R60, R72, R76, R80, R81) -/

/-- An entry of the applied-offer list (R81). -/
structure Applied where
  offer : Nat
  lines : Nat
  saving : Nat
  deriving DecidableEq, Repr

/-- A line result (R72). -/
structure LineResult where
  line : Nat
  net : Nat
  exclusive : Nat
  stackable : Nat
  deriving DecidableEq, Repr

/-- A coupon result (R76). -/
inductive CouponResult where
  | applied (amount : Nat)
  | notApplied
  | dormant
  deriving DecidableEq, Repr

/-- The quote record (R80) with the line and coupon results held beside it (R82). -/
structure Quote where
  incarnation : Counter
  revision : Counter
  generation : Nat
  gross : Nat
  overrideReduction : Nat
  lineSavings : Nat
  basketSaving : Nat
  couponValue : Nat
  redemption : Nat
  pointsUsed : Nat
  payable : Nat
  pointsEarned : Nat
  /-- at most 32 entries, in increasing offer id order -/
  applied : List Applied
  /-- applied offers not listed -/
  notListed : Nat
  lines : List LineResult
  coupons : List CouponResult
  deriving DecidableEq, Repr

/-- A line as the snapshot holds it (R36). -/
structure SnapLine where
  number : Nat
  item : Nat
  dept : Nat
  noOffers : Bool
  qty : Nat
  list : Nat
  floor : Nat
  override : Option Nat
  deriving DecidableEq, Repr

/-- A coupon as the snapshot holds it (R60). -/
structure SnapCoupon where
  kind : CouponKind
  active : Bool
  deriving DecidableEq, Repr

/-- The account part of the snapshot (R60). -/
structure SnapAccount where
  tier : Nat
  trade : Bool
  deriving DecidableEq, Repr

/-- The snapshot the resolve unit prices (R60). -/
structure Snapshot where
  ctx : CtxNo
  incarnation : Counter
  revision : Counter
  lines : List SnapLine
  coupons : List SnapCoupon
  account : Option SnapAccount
  reserved : Nat
  bank : BankNo
  generation : Nat
  day : Nat
  deriving DecidableEq, Repr

/-! ### Basket store (R13, R153) -/

/-- What an ATTACHED context holds and no other (R13). -/
structure Attachment where
  lane : LaneNo
  tracking : Tracking
  bank : BankNo
  generation : Nat
  day : Nat
  deriving DecidableEq, Repr

/-- What a PARKED context holds and no other (R13, R153). -/
structure Parking where
  ticket : Nat
  since : Nat
  /-- park lifetime timer -/
  expires : Nat
  deriving DecidableEq, Repr

/-- The state of a context (R13) with the fields present in that state only. -/
inductive Place where
  | free
  | attached (a : Attachment)
  | parked (p : Parking)
  deriving DecidableEq, Repr

/-- A context's account reference (R118). -/
structure AccountRef where
  id : Nat
  tier : Nat
  trade : Bool
  deriving DecidableEq, Repr

/-- A basket context (R13). Its reservation is held in the account hold table (R117). -/
structure Context where
  place : Place
  incarnation : Counter
  revision : Counter
  lines : List Line
  nextLine : Nat
  coupons : List Coupon
  account : Option AccountRef
  /-- the account id kept from the FINALIZE take to the freeing (R118) -/
  settledAccount : Option Nat
  quote : Option Quote
  wanted : Bool
  inFlight : Bool
  deriving DecidableEq, Repr

/-- An entry of the park list (R153). -/
structure ParkEntry where
  ticket : Nat
  ctx : CtxNo
  deriving DecidableEq, Repr

/-- The park list, oldest first, and the ticket counter (R153). -/
structure ParkStore where
  list : List ParkEntry
  lastTicket : Nat
  deriving DecidableEq, Repr

/-! ### Claim table, account hold table, authority table (R88, R116, R103) -/

/-- The state of a claim-table entry with the fields of that state (R88). -/
inductive ClaimState where
  | claimed (owner : CtxNo) (incarnation : Counter)
  | spent (day : Nat)
  deriving DecidableEq, Repr

/-- A claim-table entry (R88). -/
structure ClaimEntry where
  serial : Nat
  state : ClaimState
  deriving DecidableEq, Repr

/-- A points reservation (R117). -/
structure Reservation where
  ctx : CtxNo
  points : Nat
  /-- expiry timer (R125) -/
  expires : Nat
  deriving DecidableEq, Repr

/-- An account entry (R116); the reservations stand oldest first. -/
structure AccountEntry where
  id : Nat
  balance : Nat
  refs : Nat
  reservations : List Reservation
  deriving DecidableEq, Repr

/-- A supervisor entry (R103). -/
structure Supervisor where
  id : Nat
  level : Nat
  lineLimit : Nat
  basketCap : Nat
  deriving DecidableEq, Repr

/-! ### Scheduler and settlement writer (R134, R148) -/

/-- The resolution in flight (R134). -/
structure Flight where
  lane : LaneNo
  ctx : CtxNo
  snapshot : Snapshot
  deriving DecidableEq, Repr

/-- The previous grant (R134). -/
inductive PreviousGrant where
  | none
  | priority
  | other
  deriving DecidableEq, Repr

/-- The scheduler (R134). The unit is RESOLVING exactly while a resolution is in flight, and the waiting
set is what R136 computes from the lanes and contexts. -/
structure Scheduler where
  flight : Option Flight
  previous : PreviousGrant
  aged : List LaneNo
  deriving DecidableEq, Repr

/-- The stream record of a lane in SETTLING (R148). -/
structure Stream where
  ctx : CtxNo
  tag : Byte
  /-- number of SETTLE_LINES frames -/
  lineFrames : Nat
  /-- frames placed so far -/
  placed : Nat
  /-- the running CRC-32 before its final inversion (R190) -/
  crc : BitVec 32
  deriving DecidableEq, Repr

/-! ### Condition unit and device (R176, R177, R180) -/

/-- The detail of a class (R176); the parts a class does not use stay empty. -/
structure Detail where
  lanes : LaneSet
  ticket : Nat
  generation : Nat
  fault : FaultKind
  deriving DecidableEq, Repr

/-- A condition class's pending flag and detail (R176). -/
structure Cond where
  pending : Bool
  detail : Detail
  deriving DecidableEq, Repr

/-- The condition unit (R176, R177): the classes by code, and the mask set (class code c is bit c - 1). -/
structure CondUnit where
  classes : Vector Cond 8
  mask : BitVec 8
  deriving DecidableEq, Repr

/-- How far a RESTART has come (R181): none taken, its reply not yet transmitted, or the soft reset due. -/
inductive RestartPhase where
  | none
  | replying
  | due
  deriving DecidableEq, Repr

/-- The device-level state (R162, R180, R181). -/
structure Device where
  /-- store day, 0 while no day is open -/
  day : Nat
  /-- device state: true is SERVING -/
  serving : Bool
  /-- bit rate code read from the straps at the last reset: RATE1, RATE0 -/
  bitRate : BitVec 2
  restart : RestartPhase
  /-- RESETn is low -/
  resetLow : Bool
  deriving DecidableEq, Repr

/-- The state of the device. -/
@[ext]
structure State where
  /-- commands that are waiting, the next one first: the model's own schedule (assumption 1) -/
  pending : List Instr
  /-- the millisecond time base (R183) -/
  now : Nat
  /-- how many order choices the manual leaves open have been met (assumption 5) -/
  draws : Nat
  link : Link
  /-- lane pool (R167) -/
  pool : Inbound
  /-- bulk queue (R167) -/
  bulk : Inbound
  mainQ : MainQueue
  /-- bulk notice queue (R170); a notice in transmission is its first entry -/
  notices : List CondClass
  lanes : Vector Lane 8
  ctxs : Vector Context 12
  parks : ParkStore
  banks : Vector Bank 2
  /-- claim table in insertion order (R88) -/
  claims : List ClaimEntry
  /-- account hold table (R116) -/
  accounts : List AccountEntry
  /-- authority table (R103) -/
  authority : List Supervisor
  sched : Scheduler
  /-- stream records by lane (R148) -/
  streams : Vector (Option Stream) 8
  conds : CondUnit
  config : Configuration
  device : Device
  deriving DecidableEq, Repr

/-- Why a step stops with a fault. No rule of the manual stops the device: a request it cannot carry out
is answered with an outcome code (R184) and a damaged frame is discarded (R165), both next states. So there
is no reason at all, and no step faults (assumption 25). -/
inductive Fault where
  deriving DecidableEq, Repr

/-- Why a command is refused. -/
inductive Refusal where
  /-- raised by an arm of `exec` whose command has no meaning yet; safe -/
  | notModelled (mnemonic : String)
  deriving DecidableEq, Repr

/-- The answer of a step. -/
abbrev Out := Host.Outcome State Fault Refusal

/-! ### Reset values -/

/-- The configuration after a hard reset (R179). -/
def Configuration.default : Configuration :=
  { enabled := 0xFF
    groups := #v[.a, .a, .b, .b, .b, .c, .c, .c]
    groupOrder := [.a, .b, .c]
    priority := none
    trackingDefault := .onDemand
    poolWatermark := 18
    bulkWatermark := 6
    holdTime := 250
    renewMargin := 50
    renew := false
    release := true
    holdThreshold := 3
    reservationLifetime := 600
    idleTime := 180
    parkLifetime := 1800 }

/-- A lane record after a hard reset (R1). -/
def Lane.initial : Lane :=
  { state := .idle, tracking := .onDemand, ctx := none, idleStage := 0, idleTimer := none,
    subtotalOwed := false, passOver := 0, quoteTag := 0 }

/-- A context after a reset (R13). -/
def Context.initial : Context :=
  { place := .free, incarnation := 0, revision := 0, lines := [], nextLine := 1, coupons := [],
    account := none, settledAccount := none, quote := none, wanted := false, inFlight := false }

/-- A bank after a reset (R39). -/
def Bank.initial : Bank :=
  { state := .free, generation := 0, pins := 0, offers := [], closed := false, schedule := none }

/-- An empty detail (R176). -/
def Detail.empty : Detail := { lanes := 0, ticket := 0, generation := 0, fault := .none }

/-- A class not pending with an empty detail (R176). -/
def Cond.clear : Cond := { pending := false, detail := .empty }

/-- An empty inbound queue (R167, R172). -/
def Inbound.empty : Inbound := { frames := [], congested := false, renew := none }

/-- The device right after power-up (R182): every block at its hard-reset value and the STARTED notice,
cause POWER, placed as the first frame of the main queue. The straps are taken to be low (assumption 3). -/
def State.reset : State :=
  { pending := []
    now := 0
    draws := 0
    link := { rx := .hunt, gap := none, lastFault := .none, hold := .none, holdTimer := none,
              deviceHolds := [], tx := none, lastSent := none, quietUntil := none }
    pool := .empty
    bulk := .empty
    mainQ := { frames := [{ kind := 0x62, lane := 0, tag := 0, payload := [1, 0] }], reserved := 0,
               requests := [], served := [] }
    notices := []
    lanes := #v[.initial, .initial, .initial, .initial, .initial, .initial, .initial, .initial]
    ctxs := #v[.initial, .initial, .initial, .initial, .initial, .initial, .initial, .initial,
               .initial, .initial, .initial, .initial]
    parks := { list := [], lastTicket := 0 }
    banks := #v[.initial, .initial]
    claims := []
    accounts := []
    authority := []
    sched := { flight := none, previous := .none, aged := [] }
    streams := #v[none, none, none, none, none, none, none, none]
    conds := { classes := #v[.clear, .clear, .clear, .clear, .clear, .clear, .clear, .clear], mask := 0 }
    config := .default
    device := { day := 0, serving := false, bitRate := 0, restart := .none, resetLow := false } }

end Sys2Proof.Machine
end

