-- ==== Sys2Proof/Machine/Operands.lean ====
section
/-! DEFINITION. Operand forms: integers and check values of the link, the numeric codes of R185 and R186, and
the fields of request payloads with their range checks (R43, R46, R104, R179, R187, R188). -/

namespace Sys2Proof.Machine

/-! ### Integers on the link (00_scope, "Integers in frames") -/

/-- The unsigned big-endian value of a run of bytes. -/
def be (bs : List Byte) : Nat := bs.foldl (fun n b => n * 256 + b.toNat) 0

/-- `n` as `w` bytes, most significant first. -/
def enc : Nat → Nat → List Byte
  | 0, _ => []
  | w + 1, n => enc w (n / 256) ++ [BitVec.ofNat 8 n]

/-- The value of the `w` bytes of a payload that begin at offset `off` (R187). -/
def field (p : List Byte) (off w : Nat) : Nat := be ((p.drop off).take w)

/-- A flag (R185): 0 no, 1 yes. -/
def encFlag (b : Bool) : List Byte := [if b then 1 else 0]

/-! ### Check values (R163, R190) -/

/-- One bit of the CRC-16. -/
def crc16Bit (r : BitVec 16) : BitVec 16 :=
  if r.msb then (r <<< 1) ^^^ 0x1021 else r <<< 1

/-- One byte of the CRC-16, most significant bit first (R163). -/
def crc16Byte (r : BitVec 16) (b : Byte) : BitVec 16 :=
  Nat.repeat crc16Bit 8 (r ^^^ (b.setWidth 16 <<< 8))

/-- The CRC-16 of R163: polynomial 0x1021, initial value 0xFFFF, no final inversion. -/
def crc16 (bs : List Byte) : BitVec 16 := bs.foldl crc16Byte 0xFFFF

/-- One bit of the CRC-32 in reversed form. -/
def crc32Bit (r : BitVec 32) : BitVec 32 :=
  if r.getLsbD 0 then (r >>> 1) ^^^ 0xEDB88320 else r >>> 1

/-- One byte of the CRC-32, least significant bit first (R190). -/
def crc32Byte (r : BitVec 32) (b : Byte) : BitVec 32 :=
  Nat.repeat crc32Bit 8 (r ^^^ b.setWidth 32)

/-- The running CRC-32 before any byte (R190). -/
def crc32Init : BitVec 32 := 0xFFFFFFFF

/-- Folds bytes into a running CRC-32. -/
def crc32Fold (r : BitVec 32) (bs : List Byte) : BitVec 32 := bs.foldl crc32Byte r

/-- The CRC-32 a running remainder stands for: the remainder inverted (R190). -/
def crc32Final (r : BitVec 32) : BitVec 32 := ~~~ r

/-- The CRC-32 of a run of bytes (R190). -/
def crc32 (bs : List Byte) : BitVec 32 := crc32Final (crc32Fold crc32Init bs)

/-! ### Frames (R163, R186) -/

/-- The bytes the CRC-16 of a frame is taken over: LEN, KIND, LANE, TAG and the payload (R163). -/
def frameBody (f : Frame) : List Byte :=
  BitVec.ofNat 8 f.payload.length :: f.kind :: f.lane :: f.tag :: f.payload

/-- The start-of-frame byte (R163). -/
def sof : Byte := 0x5A

/-- A frame as it stands on the link: SOF, body, CRC high byte first (R163). -/
def frameWire (f : Frame) : List Byte :=
  sof :: (frameBody f ++ enc 2 (crc16 (frameBody f)).toNat)

/-- KIND is one of the lane requests (R186). -/
def isLaneKind (k : Byte) : Bool := 0x01 ≤ k && k ≤ 0x13

/-- KIND is one of the bulk requests (R186). -/
def isBulkKind (k : Byte) : Bool := 0x20 ≤ k && k ≤ 0x32

/-- The KIND of HOLD records (R186). -/
def kindHold : Byte := 0x40

/-- KIND is one the device knows from the host (R186). -/
def isKnownKind (k : Byte) : Bool := isLaneKind k || isBulkKind k || k == kindHold

/-- The payload of a well-formed HOLD: level 0 to 7 and a time of two bytes (R166, R187). -/
def holdWellFormed (p : List Byte) : Bool := p.length == 3 && field p 0 1 ≤ 7

/-- The lane a LANE field names, for 1 to 8. -/
def laneOf (b : Byte) : Option LaneNo :=
  if h : 1 ≤ b.toNat ∧ b.toNat ≤ 8 then some ⟨b.toNat - 1, by omega⟩ else none

/-- The LANE field of a lane. -/
def laneByte (l : LaneNo) : Byte := BitVec.ofNat 8 (l.val + 1)

/-- A lane field that may be absent: 0 means none (R185). -/
def laneByte? : Option LaneNo → Byte
  | some l => laneByte l
  | none => 0

/-- The context field of a context (R185). -/
def ctxByte (c : CtxNo) : Byte := BitVec.ofNat 8 (c.val + 1)

/-- A context field that may be absent: 0 means none (R185). -/
def ctxByte? : Option CtxNo → Byte
  | some c => ctxByte c
  | none => 0

/-- All lanes in increasing number. -/
def allLanes : List LaneNo := [0, 1, 2, 3, 4, 5, 6, 7]

/-- All contexts in increasing number. -/
def allCtxs : List CtxNo := [0, 1, 2, 3, 4, 5, 6, 7, 8, 9, 10, 11]

/-- The lane set that holds one lane (R185). -/
def laneBit (l : LaneNo) : LaneSet := BitVec.ofNat 9 (2 ^ (l.val + 1))

/-- The lane set of a list of lanes (R185). -/
def laneSetOf (ls : List LaneNo) : LaneSet := ls.foldl (fun x l => x ||| laneBit l) 0

/-! ### Outcome codes (R184, R186) -/

/-- The outcome codes (R184). -/
inductive OutcomeCode where
  | ok
  | busy
  | notReady
  | badState
  | badLane
  | badKind
  | badField
  | full
  | duplicate
  | mismatch
  | totalLimit
  | limit
  | noAuthority
  | overList
  | belowFloor
  | unknownOffer
  | outOfWindow
  | claimed
  | spent
  | claimsFull
  | noAccount
  | unknownAccount
  | insufficient
  | belowMinimum
  | noContext
  | unknownTicket
  | staleQuote
  | bankBusy
  | staleGeneration
  deriving DecidableEq, Repr

/-- The numeric value of an outcome code (R186). -/
def OutcomeCode.code : OutcomeCode → Byte
  | .ok => 0x00
  | .busy => 0x01
  | .notReady => 0x02
  | .badState => 0x03
  | .badLane => 0x04
  | .badKind => 0x05
  | .badField => 0x06
  | .full => 0x07
  | .duplicate => 0x08
  | .mismatch => 0x09
  | .totalLimit => 0x0A
  | .limit => 0x0B
  | .noAuthority => 0x0C
  | .overList => 0x0D
  | .belowFloor => 0x0E
  | .unknownOffer => 0x0F
  | .outOfWindow => 0x10
  | .claimed => 0x11
  | .spent => 0x12
  | .claimsFull => 0x13
  | .noAccount => 0x14
  | .unknownAccount => 0x15
  | .insufficient => 0x16
  | .belowMinimum => 0x17
  | .noContext => 0x18
  | .unknownTicket => 0x19
  | .staleQuote => 0x1A
  | .bankBusy => 0x1B
  | .staleGeneration => 0x1C

/-! ### Enumeration codes (R185) -/

def Tracking.code : Tracking → Byte
  | .onDemand => 0
  | .tracking => 1

def LaneState.code : LaneState → Byte
  | .off => 0
  | .idle => 1
  | .opened => 2
  | .quoting => 3
  | .totalled => 4
  | .settling => 5

def BankState.code : BankState → Byte
  | .free => 0
  | .staging => 1
  | .ready => 2
  | .current => 3
  | .draining => 4

def FaultKind.code : FaultKind → Byte
  | .none => 0
  | .crc => 1
  | .length => 2
  | .gap => 3

def OutputHold.code : OutputHold → Byte
  | .none => 0
  | .full => 1
  | .bulk => 2

def OfferKind.code : OfferKind → Byte
  | .qtyBreak => 1
  | .itemOff => 2
  | .deptPercent => 3
  | .spendOff => 4
  | .pointsBoost => 5

def Gate.code : Gate → Byte
  | .none => 0
  | .coupon => 1
  | .tierMin _ => 2
  | .trade => 3

def Gate.tier : Gate → Nat
  | .tierMin t => t
  | _ => 0

def CouponKind.code : CouponKind → Byte
  | .offerKey _ => 1
  | .storeValue _ _ => 2

/-- The place of a class in the condition unit: its class code less 1 (R185). -/
def CondClass.index : CondClass → Fin 8
  | .linkFault => 0
  | .inboundOverrun => 1
  | .holdExpired => 2
  | .holdCut => 3
  | .laneIdle => 4
  | .parkExpired => 5
  | .bankDrained => 6
  | .claimsFull => 7

/-- The class code (R185). -/
def CondClass.code (c : CondClass) : Byte := BitVec.ofNat 8 (c.index.val + 1)

/-- The classes in code order. -/
def allClasses : List CondClass :=
  [.linkFault, .inboundOverrun, .holdExpired, .holdCut, .laneIdle, .parkExpired, .bankDrained, .claimsFull]

/-- Line flags (R185): bit 0 VOIDED, bit 1 overridden, bit 2 NO_OFFERS. -/
def Line.flags (l : Line) : Byte :=
  BitVec.ofNat 8 ((if l.voided then 1 else 0) + (if l.override.isSome then 2 else 0)
    + (if l.noOffers then 4 else 0))

/-- A tracking mode of a payload (R185). -/
def trackingOf (n : Nat) : Option Tracking :=
  if n = 0 then some .onDemand else if n = 1 then some .tracking else none

/-- A group of the configuration record (R187): 0 A, 1 B, 2 C. -/
def groupOf (n : Nat) : Group :=
  if n = 0 then .a else if n = 1 then .b else .c

/-! ### Limits (00_scope, "Conventions") -/

def maxPrice : Nat := 999999
def maxAmount : Nat := 99999999
def maxPoints : Nat := 99999999
def maxQty : Nat := 9999
def maxAccountId : Nat := 1099511627775
def maxSupervisorId : Nat := 16777215

/-! ### Field checks -/

/-- The first failing check of a list of checks, each with the offset of the field it is about. -/
def firstBad : List (Bool × Nat) → Option Nat
  | [] => none
  | (ok, off) :: rest => if ok then firstBad rest else some off

/-- The kind of an offer entry (R185). -/
def offerKindOf (n : Nat) : Option OfferKind :=
  if n = 1 then some .qtyBreak else if n = 2 then some .itemOff else if n = 3 then some .deptPercent
  else if n = 4 then some .spendOff else if n = 5 then some .pointsBoost else none

/-- A kind that targets an item code (R43, R187). -/
def OfferKind.targetsItem : OfferKind → Bool
  | .qtyBreak => true
  | .itemOff => true
  | _ => false

/-- A line offer (R43). -/
def OfferKind.isLineOffer : OfferKind → Bool
  | .qtyBreak => true
  | .itemOff => true
  | .deptPercent => true
  | _ => false

/-- The values R43 allows in the threshold of an offer. -/
def OfferKind.thresholdOk : OfferKind → Nat → Bool
  | .qtyBreak, n => 2 ≤ n && n ≤ maxQty
  | .spendOff, n => n ≤ maxAmount
  | _, n => n == 0

/-- The values R43 allows in the value of an offer. -/
def OfferKind.valueOk : OfferKind → Nat → Bool
  | .qtyBreak, n => n ≤ maxPrice
  | .itemOff, n => 1 ≤ n && n ≤ maxPrice
  | .deptPercent, n => 1 ≤ n && n ≤ 10000
  | .spendOff, n => 1 ≤ n && n ≤ maxAmount
  | .pointsBoost, n => 2 ≤ n && n ≤ 10

/-- The checks of an offer entry (R43, R188), in the order of the table of R43 and then the pad bytes; a last day
before the first day is named by its own offset, 10 (assumption 28). `e` is the entry's 32 bytes. -/
def offerChecks (e : List Byte) : List (Bool × Nat) :=
  let kind := offerKindOf (field e 2 1)
  let gate := field e 3 1
  let tier := field e 4 1
  [ (1 ≤ field e 0 2, 0),
    (kind.isSome, 2),
    (match kind with
      | some k => if k.targetsItem then field e 12 4 == 0 && 1 ≤ field e 16 4 else field e 12 8 != 0
      | none => false, 12),
    (gate ≤ 3, 3),
    (if gate == 2 then tier ≤ 3 else tier == 0, 4),
    (field e 5 1 ≤ 1, 5),
    (1 ≤ field e 6 1, 6),
    (1 ≤ field e 8 2, 8),
    (field e 8 2 ≤ field e 10 2, 10),
    (match kind with | some k => k.thresholdOk (field e 20 4) | none => false, 20),
    (match kind with | some k => k.valueOk (field e 24 4) | none => false, 24),
    (match kind with | some k => k.isLineOffer || field e 28 2 == 0 | none => false, 28),
    (field e 7 1 == 0, 7),
    (field e 30 2 == 0, 30) ]

/-- The offer an entry of 32 bytes holds (R187); meant for an entry that passes `offerChecks`. -/
def offerOf (e : List Byte) : Offer :=
  let kind := (offerKindOf (field e 2 1)).getD .qtyBreak
  { id := field e 0 2
    kind := kind
    target := if kind.targetsItem then .item (field e 16 4) else .depts (BitVec.ofNat 64 (field e 12 8))
    gate :=
      if field e 3 1 = 0 then .none else if field e 3 1 = 1 then .coupon
      else if field e 3 1 = 2 then .tierMin (field e 4 1) else .trade
    stackable := field e 5 1 == 1
    rank := field e 6 1
    firstDay := field e 8 2
    lastDay := field e 10 2
    threshold := field e 20 4
    value := field e 24 4
    unitLimit := field e 28 2 }

/-- The target's 8 bytes in an entry (R187). -/
def Target.image : Target → List Byte
  | .item n => enc 8 n
  | .depts d => enc 8 d.toNat

/-- The 32-byte record image of an offer (R187, R190). -/
def Offer.image (o : Offer) : List Byte :=
  enc 2 o.id ++ [o.kind.code, o.gate.code] ++ enc 1 o.gate.tier ++ encFlag o.stackable ++ enc 1 o.rank ++ [0]
    ++ enc 2 o.firstDay ++ enc 2 o.lastDay ++ o.target.image ++ enc 4 o.threshold ++ enc 4 o.value
    ++ enc 2 o.unitLimit ++ [0, 0]

/-- The checks of a points schedule, in the order of the table of R46. -/
def scheduleChecks (p : List Byte) : List (Bool × Nat) :=
  [ (field p 0 1 ≤ 100, 0), (field p 1 1 ≤ 100, 1), (field p 2 1 ≤ 100, 2), (field p 3 1 ≤ 100, 3),
    (1 ≤ field p 4 2 && field p 4 2 ≤ 10000, 4),
    (field p 6 4 ≤ 100000, 6) ]

/-- The points schedule a payload holds (R187). -/
def scheduleOf (p : List Byte) : Schedule :=
  { earn0 := field p 0 1, earn1 := field p 1 1, earn2 := field p 2 1, earn3 := field p 3 1
    redemptionRate := field p 4 2
    minimumRedemption := field p 6 4
    excluded := BitVec.ofNat 64 (field p 10 8) }

/-- The checks of an authority entry of 10 bytes (R104). Where several fields are invalid R104 names no order: the
model takes that of check 2, which is the order of the bytes (assumption 15). -/
def supervisorChecks (e : List Byte) : List (Bool × Nat) :=
  [ (1 ≤ field e 0 3, 0),
    (1 ≤ field e 3 1 && field e 3 1 ≤ 3, 3),
    (1 ≤ field e 4 2 && field e 4 2 ≤ 10000, 4),
    (field e 6 4 ≤ maxAmount, 6) ]

/-- The supervisor entry of 10 bytes (R187). -/
def supervisorOf (e : List Byte) : Supervisor :=
  { id := field e 0 3, level := field e 3 1, lineLimit := field e 4 2, basketCap := field e 6 4 }

/-- The entries of a payload that begins with a count byte, each of `w` bytes (R187). -/
def entriesOf (w : Nat) (p : List Byte) : List (List Byte) :=
  (List.range (field p 0 1)).map fun i => (p.drop (1 + i * w)).take w

/-- The entry count is 1 to `most` and the payload holds exactly that many entries (R44, R104, R188). -/
def countOk (w most : Nat) (p : List Byte) : Bool :=
  1 ≤ p.length && 1 ≤ field p 0 1 && field p 0 1 ≤ most && p.length == 1 + field p 0 1 * w

/-- The checks of a configuration record of 28 bytes, in the order of the table of R179. -/
def configChecks (p : List Byte) : List (Bool × Nat) :=
  [ ((List.range 8).all fun i => field p (1 + i) 1 ≤ 2, 1),
    (field p 9 1 ≤ 2 && field p 10 1 ≤ 2 && field p 11 1 ≤ 2 && field p 9 1 != field p 10 1
      && field p 9 1 != field p 11 1 && field p 10 1 != field p 11 1, 9),
    (field p 12 1 ≤ 8, 12),
    (field p 13 1 ≤ 1, 13),
    (4 ≤ field p 14 1 && field p 14 1 ≤ 23, 14),
    (2 ≤ field p 15 1 && field p 15 1 ≤ 7, 15),
    (1 ≤ field p 16 2, 16),
    (field p 18 2 < field p 16 2, 18),
    (field p 20 1 ≤ 3, 20),
    (field p 21 1 ≤ 7, 21),
    (10 ≤ field p 22 2 && field p 22 2 ≤ 3600, 22),
    (field p 24 2 == 0 || (10 ≤ field p 24 2 && field p 24 2 ≤ 3600), 24),
    (60 ≤ field p 26 2 && field p 26 2 ≤ 14400, 26) ]

/-- The configuration a record of 28 bytes holds (R187). -/
def configOf (p : List Byte) : Configuration :=
  let g (i : Nat) := groupOf (field p i 1)
  { enabled := BitVec.ofNat 8 (field p 0 1)
    groups := #v[g 1, g 2, g 3, g 4, g 5, g 6, g 7, g 8]
    groupOrder := [g 9, g 10, g 11]
    priority := laneOf (BitVec.ofNat 8 (field p 12 1))
    trackingDefault := if field p 13 1 = 1 then .tracking else .onDemand
    poolWatermark := field p 14 1
    bulkWatermark := field p 15 1
    holdTime := field p 16 2
    renewMargin := field p 18 2
    renew := (BitVec.ofNat 8 (field p 20 1)).getLsbD 0
    release := (BitVec.ofNat 8 (field p 20 1)).getLsbD 1
    holdThreshold := field p 21 1
    reservationLifetime := field p 22 2
    idleTime := field p 24 2
    parkLifetime := field p 26 2 }

end Sys2Proof.Machine
end

