-- ==== Sys2Proof/Machine/Flags.lean ====
section
/-! DEFINITION. The device's flags: the pending flags and details of the condition classes, the mask, ATTN and
the CONDITION notices (R170, R176 to R178), and the order the manual leaves open. -/

namespace Sys2Proof.Machine

/-! ### Open orders (assumption 5) -/

/-- Inserts a thing by its free rank on occasion `n`. -/
def insertByRank {α : Type} (n : Nat) (code : α → Nat) (x : α) : List α → List α
  | [] => [x]
  | y :: ys =>
    if Config.orderRank n (code x) < Config.orderRank n (code y) then x :: y :: ys
    else y :: insertByRank n code x ys

/-- The things in the free order of occasion `n`. -/
def freeOrder {α : Type} (n : Nat) (code : α → Nat) : List α → List α
  | [] => []
  | x :: xs => insertByRank n code x (freeOrder n code xs)

/-- The number of open order choices after `k` things took their places together. -/
def drawsAfter (draws k : Nat) : Nat := if 2 ≤ k then draws + 1 else draws

/-! ### Condition classes (R176, R177) -/

/-- A class's pending flag and detail. -/
def State.cond (s : State) (c : CondClass) : Cond := s.conds.classes.get c.index

/-- Writes a class's pending flag and detail. -/
def State.setCond (s : State) (c : CondClass) (x : Cond) : State :=
  { s with conds := { s.conds with classes := s.conds.classes.set c.index x } }

/-- A class is in the mask set (R177). -/
def State.masked (s : State) (c : CondClass) : Bool := s.conds.mask.getLsbD c.index

/-- ATTN is driven low: the pending set and the unmasked classes have a class in common (R177). -/
def State.attnLow (s : State) : Bool := allClasses.any fun c => (s.cond c).pending && !s.masked c

/-- The pending set as a condition set (R185). -/
def State.pendingSet (s : State) : Nat :=
  allClasses.foldl (fun n c => n + if (s.cond c).pending then 2 ^ c.index.val else 0) 0

/-- Places a CONDITION notice for a class unless the queue holds one (R170, R177). -/
def placeNotice (c : CondClass) (s : State) : State :=
  if s.notices.contains c then s else { s with notices := s.notices ++ [c] }

/-- A raise of a class (R176): it becomes pending, its detail is updated, and a notice is placed when it
was not pending and is unmasked (R177). -/
def raise (c : CondClass) (update : Detail → Detail) (s : State) : State :=
  let old := s.cond c
  let s' := s.setCond c { pending := true, detail := update old.detail }
  if old.pending || s.masked c then s' else placeNotice c s'

/-- Lanes join the lane set of a detail (R176). -/
def Detail.addLanes (ls : LaneSet) (d : Detail) : Detail := { d with lanes := d.lanes ||| ls }

/-- The end of claim exhaustion: CLAIMS_FULL ceases to be pending (R91). -/
def endExhaustion (s : State) : State := s.setCond .claimsFull .clear

/-- A link fault (R165): its kind is recorded and LINK_FAULT is raised. -/
def linkFault (k : FaultKind) (s : State) : State :=
  raise .linkFault (fun d => { d with fault := k }) { s with link := { s.link with lastFault := k } }

/-- Clears a latched class named by CLEAR_CONDITIONS (R178); CLAIMS_FULL is left as it is. -/
def clearClass (c : CondClass) (s : State) : State :=
  match c with
  | .claimsFull => s
  | .linkFault => { s.setCond .linkFault .clear with link := { s.link with lastFault := .none } }
  | c => s.setCond c .clear

/-- Clears the classes of a condition set (R178). -/
def clearClasses (set : Nat) (s : State) : State :=
  allClasses.foldl (fun s c => if set.testBit c.index then clearClass c s else s) s

/-- The classes SET_MASK places a notice for: pending, masked until now, no longer masked, and without a
notice in the queue (R177). -/
def unmasking (mask : BitVec 8) (s : State) : List CondClass :=
  allClasses.filter fun c =>
    (s.cond c).pending && s.masked c && !mask.getLsbD c.index && !s.notices.contains c

/-- Replaces the mask set (R178) and places the notices of R177. -/
def setMask (mask : BitVec 8) (s : State) : State :=
  let new := unmasking mask s
  { s with
    conds := { s.conds with mask := mask }
    notices := s.notices ++ freeOrder s.draws (fun c => c.index.val) new
    draws := drawsAfter s.draws new.length }

/-- The payload of a CONDITION notice, read when its transmission begins (R177, R189). -/
def conditionPayload (c : CondClass) (s : State) : List Byte :=
  let x := s.cond c
  [c.code] ++ encFlag x.pending ++ enc 2 x.detail.lanes.toNat ++ enc 1 x.detail.ticket
    ++ enc 2 x.detail.generation ++ [x.detail.fault.code]

/-- The CONDITION notice of a class (R177, R186): lane 0, tag 0. -/
def conditionFrame (c : CondClass) (s : State) : Frame :=
  { kind := 0x61, lane := 0, tag := 0, payload := conditionPayload c s }

end Sys2Proof.Machine
end

