-- ==== Sys2Proof/Machine/Ops.lean ====
section
/-! DEFINITION. The named operations over the blocks of the device that several commands share: timers, lane
records and contexts, revision increases, pins, reservations, claims, main-queue slots, takes and replies. -/

namespace Sys2Proof.Machine

/-! ### Records of the fixed tables -/

/-- A lane record. -/
def State.lane (s : State) (l : LaneNo) : Lane := s.lanes.get l
/-- Writes a lane record. -/
def State.setLane (s : State) (l : LaneNo) (x : Lane) : State := { s with lanes := s.lanes.set l x }
/-- A basket context. -/
def State.ctx (s : State) (c : CtxNo) : Context := s.ctxs.get c
/-- Writes a basket context. -/
def State.setCtx (s : State) (c : CtxNo) (x : Context) : State := { s with ctxs := s.ctxs.set c x }
/-- A bank. -/
def State.bank (s : State) (b : BankNo) : Bank := s.banks.get b
/-- Writes a bank. -/
def State.setBank (s : State) (b : BankNo) (x : Bank) : State := { s with banks := s.banks.set b x }
/-- The stream record of a lane, if it has one. -/
def State.stream (s : State) (l : LaneNo) : Option Stream := s.streams.get l
/-- Writes or removes a stream record. -/
def State.setStream (s : State) (l : LaneNo) (x : Option Stream) : State :=
  { s with streams := s.streams.set l x }

/-- The enabled field of a lane record (R1). -/
def State.laneEnabled (s : State) (l : LaneNo) : Bool := s.config.enabled.getLsbD l
/-- The group of a lane (R1). -/
def State.laneGroup (s : State) (l : LaneNo) : Group := s.config.groups.get l

/-- A lane's basket: OPEN, QUOTING, TOTALLED or SETTLING (R3). -/
def LaneState.holdsBasket : LaneState → Bool
  | .off | .idle => false
  | .opened | .quoting | .totalled | .settling => true

/-- A busy lane takes no request (R3, R4). -/
def LaneState.busy : LaneState → Bool
  | .quoting | .settling => true
  | .off | .idle | .opened | .totalled => false

/-- The lanes that hold a basket. -/
def basketLanes (s : State) : List LaneNo := allLanes.filter fun l => (s.lane l).state.holdsBasket

/-- A context is FREE (R13). -/
def Context.isFree (x : Context) : Bool :=
  match x.place with
  | .free => true
  | _ => false

/-- The fields of an ATTACHED context (R13). -/
def Context.attachment (x : Context) : Option Attachment :=
  match x.place with
  | .attached a => some a
  | _ => none

/-- The fields of a PARKED context (R13). -/
def Context.parking (x : Context) : Option Parking :=
  match x.place with
  | .parked p => some p
  | _ => none

/-- The context state code of R185. -/
def Context.stateCode (x : Context) : Byte :=
  match x.place with
  | .free => 0
  | .attached _ => 1
  | .parked _ => 2

/-- The lane or the park ticket reported with a context's state (R102, R132); 0 for a FREE context. -/
def Context.laneOrTicket (x : Context) : Byte :=
  match x.place with
  | .free => 0
  | .attached a => laneByte a.lane
  | .parked p => BitVec.ofNat 8 p.ticket

/-! ### Timers (R183) -/

/-- A running timer has reached its time. -/
def State.timerDue (s : State) (t : Option Nat) : Bool :=
  match t with
  | some d => d ≤ s.now
  | none => false

/-- The time a timer of `ms` milliseconds started now expires at. -/
def State.after (s : State) (ms : Nat) : Nat := s.now + ms

/-- The milliseconds left on a timer, 0 when it does not run. -/
def State.timeLeft (s : State) (t : Option Nat) : Nat :=
  match t with
  | some d => d - s.now
  | none => 0

/-! ### Idle monitor (R158) -/

/-- Starts or restarts a lane's idle timer at a stage; with an idle time of 0 it is not started and the stage
stays 0 (R158). -/
def startIdle (stage : Nat) (l : LaneNo) (s : State) : State :=
  if s.config.idleTime = 0 then
    s.setLane l { s.lane l with idleStage := 0, idleTimer := none }
  else
    s.setLane l { s.lane l with idleStage := stage, idleTimer := some (s.after (s.config.idleTime * 1000)) }

/-- Stops a lane's idle timer with its stage at 0 (R158). -/
def stopIdle (l : LaneNo) (s : State) : State :=
  s.setLane l { s.lane l with idleStage := 0, idleTimer := none }

/-- A take on a lane restarts the idle timer in OPEN and TOTALLED (R5, R158). -/
def touchIdle (l : LaneNo) (s : State) : State :=
  match (s.lane l).state with
  | .opened | .totalled => startIdle 0 l s
  | .off | .idle | .quoting | .settling => s

/-! ### Waiting set (R136) -/

/-- A lane is in the waiting set (R136). -/
def State.waiting (s : State) (l : LaneNo) : Bool :=
  ((s.lane l).state == .opened || (s.lane l).state == .quoting) &&
    match (s.lane l).ctx with
    | some c => (s.ctx c).wanted && !(s.ctx c).inFlight
    | none => false

/-- What becomes of a lane that leaves the waiting set without a grant: its pass-over count is 0 and it is off
the aged list (R136). -/
def leaveWaiting (l : LaneNo) (s : State) : State :=
  let s := s.setLane l { s.lane l with passOver := 0 }
  { s with sched := { s.sched with aged := s.sched.aged.filter (· != l) } }

/-- A lane's basket has left it: the lane goes to IDLE with no context, stage 0, idle timer stopped and no
subtotal owed (R12, R20, R151, R154), and leaves the waiting set. -/
def clearLane (l : LaneNo) (s : State) : State :=
  leaveWaiting l (s.setLane l
    { s.lane l with state := .idle, ctx := none, idleStage := 0, idleTimer := none, subtotalOwed := false })

/-! ### Revisions (R7, R11, R15) -/

/-- The context after a revision increase: the quote goes, and a resolve is wanted when it is ATTACHED in
TRACKING mode (R15). -/
def Context.bumped (x : Context) : Context :=
  { x with
    revision := x.revision + 1
    quote := none
    wanted := x.wanted || match x.place with
      | .attached a => a.tracking == .tracking
      | _ => false }

/-- What a revision increase of its context does to a lane: an owed SUBTOTAL is dropped with the quote (R144),
and TOTALLED goes to OPEN (R7, R11). -/
def Lane.overtaken (x : Lane) : Lane :=
  { x with subtotalOwed := false, state := if x.state = .totalled then .opened else x.state }

/-- A revision increase of a context, with what it does to the lane it is attached to (R7, R11, R15). -/
def bumpRevision (c : CtxNo) (s : State) : State :=
  let s' := s.setCtx c (s.ctx c).bumped
  match (s.ctx c).place with
  | .attached a => s'.setLane a.lane (s'.lane a.lane).overtaken
  | _ => s'

/-- The freed context (R19): incarnation and resolve in flight stay, the revision moves once. -/
def Context.freed (x : Context) : Context :=
  { Context.initial with
    incarnation := x.incarnation, revision := x.revision + 1, inFlight := x.inFlight }

/-- Freeing of a context (R19). -/
def freeCtx (c : CtxNo) (s : State) : State := s.setCtx c (s.ctx c).freed

/-! ### Banks and pins (R39, R52 to R54) -/

/-- The bank in a given state, bank 0 first. -/
def State.bankIn (s : State) (p : BankState → Bool) : Option BankNo :=
  if p (s.bank 0).state then some 0 else if p (s.bank 1).state then some 1 else none

/-- The CURRENT bank (R40). -/
def State.currentBank (s : State) : Option BankNo := s.bankIn (· == .current)

/-- The staging bank: the one in STAGING or READY (R41). -/
def State.stagingBank (s : State) : Option BankNo := s.bankIn fun x => x == .staging || x == .ready

/-- A bank becomes FREE and keeps its generation (R39, R50, R51, R54). -/
def Bank.emptied (x : Bank) : Bank :=
  { x with state := .free, pins := 0, offers := [], closed := false, schedule := none }

/-- A context pins a bank (R52). -/
def pinBank (b : BankNo) (s : State) : State := s.setBank b { s.bank b with pins := (s.bank b).pins + 1 }

/-- A pin on a bank is released; the last pin of the DRAINING bank frees it and raises BANK_DRAINED (R53,
R54). -/
def releasePin (b : BankNo) (s : State) : State :=
  let x := s.bank b
  if x.state = .draining ∧ x.pins ≤ 1 then
    raise .bankDrained (fun d => { d with generation := x.generation }) (s.setBank b x.emptied)
  else
    s.setBank b { x with pins := x.pins - 1 }

/-- The pin of a context is released, when it has one (R53). -/
def releasePinOf (c : CtxNo) (s : State) : State :=
  match (s.ctx c).place with
  | .attached a => releasePin a.bank s
  | _ => s

/-! ### Accounts and reservations (R116 to R118) -/

/-- The entry of an account (R116). -/
def State.account (s : State) (id : Nat) : Option AccountEntry := s.accounts.find? (·.id == id)

/-- The reservation of a context, with the entry it stands in (R13, R117). -/
def State.reservation (s : State) (c : CtxNo) : Option Reservation :=
  s.accounts.findSome? fun e => e.reservations.find? (·.ctx == c)

/-- The points a context has reserved, 0 when it has no reservation. -/
def State.reserved (s : State) (c : CtxNo) : Nat :=
  match s.reservation c with
  | some r => r.points
  | none => 0

/-- Changes the entry of one account. -/
def changeAccount (id : Nat) (f : AccountEntry → AccountEntry) (s : State) : State :=
  { s with accounts := s.accounts.map fun e => if e.id == id then f e else e }

/-- The reservation of a context is removed with its timer (R117). -/
def removeReservation (c : CtxNo) (s : State) : State :=
  { s with accounts := s.accounts.map fun e =>
      { e with reservations := e.reservations.filter fun r => r.ctx != c } }

/-- The expiry timer of a context's reservation is restarted for the configured lifetime (R125). -/
def restartReservation (c : CtxNo) (s : State) : State :=
  { s with accounts := s.accounts.map fun e =>
      { e with reservations := e.reservations.map fun r =>
          if r.ctx == c then { r with expires := s.after (s.config.reservationLifetime * 1000) } else r } }

/-- A take on a lane restarts the timer of the reservation of its context (R5, R125). -/
def touchReservation (l : LaneNo) (s : State) : State :=
  match (s.lane l).ctx with
  | some c => restartReservation c s
  | none => s

/-- One reference to an account is dropped: the count falls by one, and the entry goes at 0 (R116). -/
def dropReference (id : Nat) (s : State) : State :=
  { s with accounts :=
      (s.accounts.map fun e => if e.id == id then { e with refs := e.refs - 1 } else e).filter fun e =>
        e.id != id || e.refs != 0 }

/-- The account reference of a context is dropped, when it has one (R116). -/
def dropReferenceOf (c : CtxNo) (s : State) : State :=
  match (s.ctx c).account with
  | some a => dropReference a.id s
  | none => s

/-- The sum of an entry's reservations. -/
def AccountEntry.sum (e : AccountEntry) : Nat := (e.reservations.map (·.points)).sum

/-- The available points of an entry for one context: the balance less the reservations of every other
context (R117). -/
def AccountEntry.availableTo (e : AccountEntry) (c : CtxNo) : Nat :=
  e.balance - ((e.reservations.filter fun r => r.ctx != c).map (·.points)).sum

/-- The cut of the reservations, youngest first (R127): what remains, the contexts reduced, and how many of
their reservations were removed. -/
def cutYoungest : Nat → List Reservation → List Reservation × List CtxNo × Nat
  | 0, rs => (rs, [], 0)
  | _ + 1, [] => ([], [], 0)
  | ex + 1, r :: rs =>
    if r.points ≤ ex + 1 then
      let rest := cutYoungest (ex + 1 - r.points) rs
      (rest.1, r.ctx :: rest.2.1, rest.2.2 + 1)
    else ({ r with points := r.points - (ex + 1) } :: rs, [r.ctx], 0)

/-- The lanes the given contexts are attached to. -/
def lanesOf (s : State) (cs : List CtxNo) : List LaneNo :=
  cs.filterMap fun c => (s.ctx c).attachment.map (·.lane)

/-- The cut rule applied to the entry of an account (R127), with the number of reservations reduced and the
number of those removed. -/
def cutRule (id : Nat) (s : State) : State × Nat × Nat :=
  match s.account id with
  | none => (s, 0, 0)
  | some e =>
    let cut := cutYoungest (e.sum - e.balance) e.reservations.reverse
    let touched := cut.2.1
    if touched.isEmpty then (s, 0, 0)
    else
      let s := changeAccount id (fun e => { e with reservations := cut.1.reverse }) s
      let s := touched.foldl (fun s c => bumpRevision c s) s
      (raise .holdCut (·.addLanes (laneSetOf (lanesOf s touched))) s, touched.length, cut.2.2)

/-! ### Claims (R88) -/

/-- A claim-table entry is CLAIMED and owned by a context at its present incarnation (R88). -/
def ClaimEntry.ownedBy (s : State) (c : CtxNo) (e : ClaimEntry) : Bool :=
  e.state == .claimed c (s.ctx c).incarnation

/-- A claim-table entry is SPENT (R88). -/
def ClaimEntry.isSpent (e : ClaimEntry) : Bool :=
  match e.state with
  | .spent _ => true
  | .claimed _ _ => false

/-- Removal of claim-table entries; the removal of any ends exhaustion (R91). -/
def removeClaims (p : ClaimEntry → Bool) (s : State) : State :=
  let s' := { s with claims := s.claims.filter fun e => !p e }
  if s.claims.any p then endExhaustion s' else s'

/-- Removal of every entry a context owns (R100). -/
def removeClaimsOf (c : CtxNo) (s : State) : State := removeClaims (ClaimEntry.ownedBy s c) s

/-- Every entry a context owns becomes SPENT on the current store day, in its place (R99). -/
def spendClaimsOf (c : CtxNo) (s : State) : State :=
  let spend (e : ClaimEntry) : ClaimEntry :=
    if e.ownedBy s c then { e with state := .spent s.device.day } else e
  let s' := { s with claims := s.claims.map spend }
  if s.claims.any (ClaimEntry.ownedBy s c) then endExhaustion s' else s'

/-! ### Parking (R153, R154) -/

/-- A ticket is that of a PARKED context (R153). -/
def ticketUsed (s : State) (t : Nat) : Bool := s.parks.list.any (·.ticket == t)

/-- The first ticket after `last` that is not in use, tried over `fuel` numbers (R153). -/
def nextTicket (s : State) : Nat → Nat → Nat
  | 0, last => last % 255 + 1
  | fuel + 1, last =>
    let t := last % 255 + 1
    if ticketUsed s t then nextTicket s fuel t else t

/-- What PARK and auto-park do (R154, R160): the state after, the ticket and the points released. -/
def parkBasket (l : LaneNo) (c : CtxNo) (s : State) : State × Nat × Nat :=
  let points := s.reserved c
  let s := match s.reservation c with
    | some _ => bumpRevision c (removeReservation c s)
    | none => s
  let s := releasePinOf c s
  let ticket := nextTicket s 13 s.parks.lastTicket
  let s := s.setCtx c { s.ctx c with
    place := .parked { ticket := ticket, since := s.now, expires := s.after (s.config.parkLifetime * 1000) }
    quote := none
    wanted := false }
  let s := { s with parks := { list := s.parks.list ++ [{ ticket := ticket, ctx := c }], lastTicket := ticket } }
  (clearLane l s, ticket, points)

/-! ### Inbound queues (R167, R172, R173) -/

/-- An inbound queue. -/
def State.inbound (s : State) : QueueId → Inbound
  | .pool => s.pool
  | .bulk => s.bulk

/-- Writes an inbound queue. -/
def State.setInbound (s : State) (q : QueueId) (x : Inbound) : State :=
  match q with
  | .pool => { s with pool := x }
  | .bulk => { s with bulk := x }

/-- The scope of a queue's HOLD records (R172). -/
def queueScope : QueueId → HoldScope
  | .pool => .full
  | .bulk => .bulk

/-- The queue a scope belongs to (R172). -/
def HoldScope.queue : HoldScope → QueueId
  | .full => .pool
  | .bulk => .bulk

/-- A record takes the place of a pending one of its scope, with its own time, or joins the end (R173). -/
def replaceHold (h : DeviceHold) (hs : List DeviceHold) : List DeviceHold :=
  if hs.any (·.scope == h.scope) then hs.map fun x => if x.scope == h.scope then h else x else hs ++ [h]

/-- A device HOLD record becomes pending (R173). -/
def makeHold (scope : HoldScope) (time : Nat) (s : State) : State :=
  { s with link := { s.link with deviceHolds := replaceHold { scope := scope, time := time } s.link.deviceHolds } }

/-- The end of a congestion episode, at a take that leaves the queue empty (R172). -/
def clearCongestion (q : QueueId) (s : State) : State :=
  let x := s.inbound q
  if x.congested && x.frames.isEmpty then
    let s := s.setInbound q { x with congested := false, renew := none }
    if s.config.release then makeHold (queueScope q) 0 s else s
  else s

/-- Removes one frame from a queue at its take, with the end of the congestion episode (R167, R172). -/
def removeFrame (q : QueueId) (f : Frame) (s : State) : State :=
  clearCongestion q (s.setInbound q { s.inbound q with frames := (s.inbound q).frames.erase f })

/-! ### Main queue slots (R168, R169) -/

/-- The slots occupied by frames, the frame in transmission included (R168). -/
def State.occupied (s : State) : Nat :=
  s.mainQ.frames.length +
    match s.link.tx with
    | some t => if t.source = .main then 1 else 0
    | none => 0

/-- The unreserved free slots: not occupied, not reserved and not served to a claim (R168, R169). -/
def State.freeSlots (s : State) : Nat :=
  24 - (s.occupied + s.mainQ.reserved + s.mainQ.served.length)

/-- A claim may use a slot now: one has been served to it, or an unreserved slot is free (R169). -/
def State.slotFor (s : State) (c : Claim) : Bool :=
  s.mainQ.served.contains c || decide (0 < s.freeSlots)

/-- A claim uses its slot: it is no longer among the claims served (R169). -/
def useSlot (c : Claim) (s : State) : State :=
  { s with mainQ := { s.mainQ with served := s.mainQ.served.erase c } }

/-- A take reserves a slot (R168). -/
def reserveSlot (s : State) : State :=
  { s with mainQ := { s.mainQ with reserved := s.mainQ.reserved + 1 } }

/-- A frame is placed in an unreserved slot (R168). -/
def placeFrame (f : Frame) (s : State) : State :=
  { s with mainQ := { s.mainQ with frames := s.mainQ.frames ++ [f] } }

/-- A frame is placed in a reserved slot (R168). -/
def placeReserved (f : Frame) (s : State) : State :=
  { s with mainQ := { s.mainQ with frames := s.mainQ.frames ++ [f], reserved := s.mainQ.reserved - 1 } }

/-- The lane request the lane controller would take next: of the eligible requests the one that arrived
first (R4). -/
def State.nextLaneRequest (s : State) : Option Frame :=
  s.pool.frames.find? fun f =>
    match laneOf f.lane with
    | some l => !(s.lane l).state.busy
    | none => false

/-- A claim of R169 stands: it still needs a slot. -/
def State.claimStands (s : State) : Claim → Bool
  | .laneTake => s.device.restart == .none && s.nextLaneRequest.isSome
  | .bulkTake => s.device.restart == .none && !s.bulk.frames.isEmpty
  | .stream l => (s.stream l).isSome
  | .owed l => (s.lane l).subtotalOwed

/-- Every claim there can be (R169). -/
def allClaims : List Claim :=
  [.laneTake, .bulkTake] ++ allLanes.map .stream ++ allLanes.map .owed

/-- The code of a claim for the open orders. -/
def Claim.code : Claim → Nat
  | .laneTake => 0
  | .bulkTake => 1
  | .stream l => 2 + l.val
  | .owed l => 10 + l.val

/-- Claims that no longer stand leave the slot request list, and a slot served to one is free again (R169). -/
def dropClaims (s : State) : State :=
  { s with mainQ := { s.mainQ with
      requests := s.mainQ.requests.filter s.claimStands
      served := s.mainQ.served.filter s.claimStands } }

/-- Free slots are served to the head of the slot request list (R169). -/
def serveClaims (s : State) : State :=
  { s with mainQ := { s.mainQ with
      served := s.mainQ.served ++ s.mainQ.requests.take s.freeSlots
      requests := s.mainQ.requests.drop s.freeSlots } }

/-- The claims that stand and have neither a place on the list nor a slot. -/
def newClaims (s : State) : List Claim :=
  allClaims.filter fun c =>
    s.claimStands c && !s.mainQ.requests.contains c && !s.mainQ.served.contains c

/-- Claims that find no free slot join the slot request list at its end (R169). -/
def joinClaims (s : State) : State :=
  if s.freeSlots = 0 then
    let new := newClaims s
    { s with
      mainQ := { s.mainQ with requests := s.mainQ.requests ++ freeOrder s.draws Claim.code new }
      draws := drawsAfter s.draws new.length }
  else s

/-- The slot request list brought up to date at the end of a step (R169). -/
def settleClaims (s : State) : State := joinClaims (serveClaims (dropClaims s))

/-! ### Takes and replies (R4 to R6, R166, R184, R189) -/

/-- The answer of a request: a reply with an outcome and the fields that follow it, or none yet (TOTAL without
a current quote, and FINALIZE carried out, R5). -/
inductive Answer where
  | reply (o : OutcomeCode) (fields : List Byte)
  | later
  deriving DecidableEq, Repr

/-- A BAD_FIELD answer naming an entry index and an offset (R188). -/
def badField (index offset : Nat) : Answer := .reply .badField (enc 1 index ++ enc 1 offset)

/-- A BAD_FIELD answer for a wrong payload length (R188). -/
def badLength : Answer := badField 0 0xFF

/-- What the take of a request from the lane pool does (R5): the frame leaves the pool, a slot is reserved, and
the take is signalled to the lane's idle timer and to the reservation timer of its context. -/
def laneTaken (f : Frame) (l : LaneNo) (s : State) : State :=
  touchReservation l (touchIdle l (removeFrame .pool f (reserveSlot (useSlot .laneTake s))))

/-- The take of a request from the lane pool (R4, R5). None when the lane controller does not take this frame
now. -/
def takeLane (f : Frame) (l : LaneNo) (s : State) : Option State :=
  if s.device.restart = .none ∧ s.nextLaneRequest = some f ∧ s.slotFor .laneTake then some (laneTaken f l s)
  else none

/-- What the take of a frame from the bulk queue does (R167): the frame leaves the queue and a slot is
reserved. -/
def bulkTaken (f : Frame) (s : State) : State := removeFrame .bulk f (reserveSlot (useSlot .bulkTake s))

/-- The take of the oldest frame of the bulk queue (R167). None when the device-level request handler does not
take this frame now. -/
def takeBulk (f : Frame) (s : State) : Option State :=
  if s.device.restart = .none ∧ s.bulk.frames.head? = some f ∧ s.slotFor .bulkTake then some (bulkTaken f s)
  else none

/-- The revision of the context attached to a lane, 0 when it has none (R189). -/
def State.laneRevision (s : State) (l : LaneNo) : Counter :=
  match (s.lane l).ctx with
  | some c => (s.ctx c).revision
  | none => 0

/-- The reply to a request taken from the lane pool (R189). -/
def laneReply (k : Byte) (r : Req) (l : LaneNo) (o : OutcomeCode) (fields : List Byte) (s : State) : Frame :=
  { kind := 0x80 + k, lane := r.lane, tag := r.tag
    payload := o.code :: (enc 2 (s.laneRevision l).toNat ++ fields) }

/-- The reply to a request taken from the bulk queue (R189). -/
def bulkReply (k : Byte) (r : Req) (o : OutcomeCode) (fields : List Byte) : Frame :=
  { kind := 0x80 + k, lane := r.lane, tag := r.tag, payload := o.code :: fields }

/-- Places the answer of a lane request. -/
def answerLane (k : Byte) (r : Req) (l : LaneNo) (x : State × Answer) : State :=
  match x.2 with
  | .reply o fields => placeReserved (laneReply k r l o fields x.1) x.1
  | .later => x.1

/-- Places the answer of a bulk request. -/
def answerBulk (k : Byte) (r : Req) (x : State × Answer) : State :=
  match x.2 with
  | .reply o fields => placeReserved (bulkReply k r o fields) x.1
  | .later => x.1

/-- The lane-state check of R3 for requests that act on a basket. -/
def gateBasket : LaneState → Option OutcomeCode
  | .opened | .totalled => none
  | .off | .idle | .quoting | .settling => some .badState

/-- The lane-state check of R3 for OPEN_BASKET and RECALL. -/
def gateIdle : LaneState → Option OutcomeCode
  | .idle => none
  | .off | .opened | .totalled | .quoting | .settling => some .badState

/-- The lane-state check of R3 for FINALIZE. -/
def gateFinalize : LaneState → Option OutcomeCode
  | .totalled => none
  | .opened => some .staleQuote
  | .off | .idle | .quoting | .settling => some .badState

/-- What a lane request does after its take: BAD_LANE on an OFF lane (R2), the lane-state check (R3), the
payload length (R188), then the request's own chapter. -/
def laneBody (gate : LaneState → Option OutcomeCode) (len : Nat) (r : Req) (l : LaneNo)
    (body : State → State × Answer) (s : State) : State × Answer :=
  if (s.lane l).state = .off then (s, .reply .badLane [])
  else
    match gate (s.lane l).state with
    | some o => (s, .reply o [])
    | none => if r.payload.length = len then body s else (s, badLength)

/-- A request that acts on the lane's attached context. A lane in OPEN or TOTALLED always has one (R12); were
there none the request would be answered BAD_STATE (assumption 22). -/
def onCtx (l : LaneNo) (body : CtxNo → State → State × Answer) (s : State) : State × Answer :=
  match (s.lane l).ctx with
  | some c => body c s
  | none => (s, .reply .badState [])

/-- Does nothing while RESETn holds the device in reset (R162). -/
def whenLive (f : State → State) (s : State) : Out := .next (if s.device.resetLow then s else f s)

/-- A lane request's step, for a frame of kind `k`: the take by its LANE field and the answer (R4 to R6). A take
the device does not make now changes nothing (assumption 2). -/
def laneRequest (k : Byte) (gate : LaneState → Option OutcomeCode) (len : Nat) (r : Req)
    (body : LaneNo → State → State × Answer) (s : State) : Out :=
  whenLive (fun s =>
    if r.lane = 0 then
      match takeBulk (r.frame k) s with
      | some s' => settleClaims (answerBulk k r (s', .reply .badLane []))
      | none => s
    else
      match laneOf r.lane with
      | some l =>
        match takeLane (r.frame k) l s with
        | some s' => settleClaims (answerLane k r l (laneBody gate len r l (body l) s'))
        | none => s
      | none => s) s

/-- A bulk request's step, for a frame of kind `k`: the take by its LANE field and the answer (R6, R167). `body`
makes the payload-length check itself, at the place its chapter gives it. -/
def bulkRequest (k : Byte) (r : Req) (body : State → State × Answer) (s : State) : Out :=
  whenLive (fun s =>
    if r.lane = 0 then
      match takeBulk (r.frame k) s with
      | some s' => settleClaims (answerBulk k r (body s'))
      | none => s
    else
      match laneOf r.lane with
      | some l =>
        match takeLane (r.frame k) l s with
        | some s' => settleClaims (answerLane k r l (s', .reply .badLane []))
        | none => s
      | none => s) s

/-- The payload-length check before a bulk request's own checks (R188). -/
def withLength (len : Nat) (r : Req) (body : State → State × Answer) (s : State) : State × Answer :=
  if r.payload.length = len then body s else (s, badLength)

end Sys2Proof.Machine
end

