-- ==== Sys2Proof/Machine/Lanes.lean ====
section
/-! DEFINITION. The lane requests of chapters 1 and 2 that open, price, query and end a basket: OPEN_BASKET, TOTAL,
SET_TRACKING, QUERY_BASKET and VOID_BASKET. -/

namespace Sys2Proof.Machine

/-! ### Figures of a basket (R22, R25) -/

/-- A line's quantity times its list price when it is ACTIVE (R25). -/
def Line.grossPart (l : Line) : Nat := if l.voided then 0 else l.qty * l.list

/-- The gross of a line list (R25). -/
def grossOf (ls : List Line) : Nat := (ls.map Line.grossPart).sum

/-- The basket gross (R25). -/
def Context.gross (x : Context) : Nat := grossOf x.lines

/-- The number of ACTIVE lines. -/
def Context.activeLines (x : Context) : Nat := (x.lines.filter (!·.voided)).length

/-- The unit price in force on a line (R22). -/
def Line.unitPrice (l : Line) : Nat :=
  match l.override with
  | some o => o.price
  | none => l.list

/-- The net of a line by its number, 0 when the line has no stored net (R22, R36, R82). -/
def Quote.netOf (q : Quote) (n : Nat) : Nat :=
  match q.lines.find? (·.line == n) with
  | some r => r.net
  | none => 0

/-- The net reported for a line: 0 for a VOIDED line and without a current quote (R22). -/
def Context.reportedNet (x : Context) (l : Line) : Nat :=
  if l.voided then 0
  else match x.quote with
    | some q => q.netOf l.number
    | none => 0

/-- The account id of a context, 0 for none (R185). -/
def Context.accountId (x : Context) : Nat :=
  match x.account with
  | some a => a.id
  | none => 0

/-! ### Quote summaries (R142, R189) -/

/-- The number of applied offers of a quote, listed and not listed (R81). -/
def Quote.appliedCount (q : Quote) : Nat := q.applied.length + q.notListed

/-- The 44 bytes of a quote summary (R189). -/
def Quote.summary (q : Quote) : List Byte :=
  enc 2 q.incarnation.toNat ++ enc 2 q.revision.toNat ++ enc 2 q.generation
    ++ enc 4 q.gross ++ enc 4 q.overrideReduction ++ enc 4 q.lineSavings ++ enc 4 q.basketSaving
    ++ enc 4 q.couponValue ++ enc 4 q.redemption ++ enc 4 q.pointsUsed ++ enc 4 q.payable
    ++ enc 4 q.pointsEarned ++ enc 2 q.appliedCount

/-- The fields of a QUOTE reply after its outcome and revision (R142, R189): the context number, the summary
and the listed offers, each by its id and total saving. -/
def quoteFields (c : CtxNo) (q : Quote) : List Byte :=
  ctxByte c :: (q.summary ++ q.applied.flatMap fun a => enc 2 a.offer ++ enc 4 a.saving)

/-! ### OPEN_BASKET (R16 to R18) -/

/-- The lowest-numbered FREE context (R16). -/
def State.freeContext (s : State) : Option CtxNo := allCtxs.find? fun c => (s.ctx c).isFree

/-- The context allocated by OPEN_BASKET (R16, R17): its incarnation moves, its resolve in flight stays. -/
def Context.allocated (x : Context) (a : Attachment) : Context :=
  { Context.initial with
    place := .attached a, incarnation := x.incarnation + 1, inFlight := x.inFlight }

/-- The fields of an accepted OPEN_BASKET (R18). -/
def openFields (c : CtxNo) (x : Context) (a : Attachment) : List Byte :=
  [ctxByte c] ++ enc 2 x.incarnation.toNat ++ enc 2 x.revision.toNat ++ enc 2 a.generation ++ enc 2 a.day
    ++ [a.tracking.code]

/-- The basket opened in context `c` on lane `l` with bank `b` CURRENT (R17). -/
def openIn (l : LaneNo) (c : CtxNo) (b : BankNo) (s : State) : State × Answer :=
  let a : Attachment :=
    { lane := l, tracking := (s.lane l).tracking, bank := b, generation := (s.bank b).generation
      day := s.device.day }
  let x := (s.ctx c).allocated a
  let s := pinBank b (s.setCtx c x)
  let s := s.setLane l { s.lane l with state := .opened, ctx := some c }
  (startIdle 0 l s, .reply .ok (openFields c x a))

/-- The checks of OPEN_BASKET after the lane is IDLE (R17). A SERVING device always has a CURRENT bank (R17);
were there none the request would be answered NOT_READY (assumption 22). -/
def openBody (l : LaneNo) (s : State) : State × Answer :=
  if s.device.serving then
    match s.freeContext with
    | none => (s, .reply .noContext [])
    | some c =>
      match s.currentBank with
      | some b => openIn l c b s
      | none => (s, .reply .notReady [])
  else (s, .reply .notReady [])

/-- OPEN_BASKET (R17, R18). -/
def execOpenBasket (r : Req) (s : State) : Out := laneRequest 0x01 gateIdle 0 r openBody s

/-! ### TOTAL (R8) -/

/-- TOTAL on the attached context (R8, R135, R142, R144). -/
def totalBody (tag : Byte) (l : LaneNo) (c : CtxNo) (s : State) : State × Answer :=
  match (s.ctx c).quote with
  | some q =>
    (s.setLane l { s.lane l with state := .totalled, subtotalOwed := false },
      .reply .ok (quoteFields c q))
  | none =>
    let s := s.setCtx c { s.ctx c with wanted := true }
    let s := s.setLane l { s.lane l with state := .quoting, quoteTag := tag }
    (stopIdle l s, .later)

/-- TOTAL (R8). -/
def execTotal (r : Req) (s : State) : Out :=
  laneRequest 0x0E gateBasket 0 r (fun l => onCtx l (totalBody r.tag l)) s

/-! ### SET_TRACKING (R21) -/

/-- The tracking mode of an attached context is set (R21). -/
def Context.withTracking (x : Context) (m : Tracking) : Context :=
  match x.place with
  | .attached a => { x with place := .attached { a with tracking := m } }
  | _ => x

/-- SET_TRACKING on the attached context (R21, R135, R136). -/
def setTrackingBody (p : List Byte) (l : LaneNo) (c : CtxNo) (s : State) : State × Answer :=
  match trackingOf (field p 0 1) with
  | none => (s, badField 0 0)
  | some m =>
    let s := s.setCtx c ((s.ctx c).withTracking m)
    let s := s.setLane l { s.lane l with tracking := m }
    match m with
    | .tracking =>
      (s.setCtx c { s.ctx c with wanted := (s.ctx c).wanted || (s.ctx c).quote.isNone },
        .reply .ok [m.code])
    | .onDemand =>
      let s := s.setCtx c { s.ctx c with wanted := false }
      let s := s.setLane l { s.lane l with subtotalOwed := false }
      (leaveWaiting l s, .reply .ok [m.code])

/-- SET_TRACKING (R21). -/
def execSetTracking (r : Req) (s : State) : Out :=
  laneRequest 0x0D gateBasket 1 r (fun l => onCtx l (setTrackingBody r.payload l)) s

/-! ### QUERY_BASKET (R22) -/

/-- A line entry of QUERY_BASKET (R22, R189). -/
def queryEntry (x : Context) (l : Line) : List Byte :=
  enc 1 l.number ++ [l.flags] ++ enc 4 l.item ++ enc 2 l.qty ++ enc 4 l.unitPrice ++ enc 4 (x.reportedNet l)

/-- The lines QUERY_BASKET reports (R22). -/
def Context.queried (x : Context) (first : Nat) : List Line :=
  (x.lines.filter fun l => first ≤ l.number).take 12

/-- The fields of an accepted QUERY_BASKET (R22). -/
def queryFields (c : CtxNo) (s : State) (first : Nat) : List Byte :=
  let x := s.ctx c
  let mode := match x.attachment with | some a => a.tracking.code | none => 0
  let day := match x.attachment with | some a => a.day | none => 0
  let gen := match x.attachment with | some a => a.generation | none => 0
  let payable := match x.quote with | some q => q.payable | none => 0
  [ctxByte c] ++ enc 2 x.incarnation.toNat ++ enc 2 x.revision.toNat ++ [mode] ++ enc 2 day ++ enc 2 gen
    ++ enc 1 x.lines.length ++ enc 1 x.activeLines ++ enc 1 x.coupons.length ++ enc 5 x.accountId
    ++ enc 4 (s.reserved c) ++ encFlag x.quote.isSome ++ enc 4 payable
    ++ enc 2 (x.queried first).length ++ (x.queried first).flatMap (queryEntry x)

/-- QUERY_BASKET on the attached context (R22). -/
def queryBasketBody (p : List Byte) (c : CtxNo) (s : State) : State × Answer :=
  let first := field p 0 1
  if 1 ≤ first ∧ first ≤ 128 then (s, .reply .ok (queryFields c s first)) else (s, badField 0 0)

/-- QUERY_BASKET (R22). -/
def execQueryBasket (r : Req) (s : State) : Out :=
  laneRequest 0x13 gateBasket 1 r (fun l => onCtx l (queryBasketBody r.payload)) s

/-! ### VOID_BASKET (R19, R20) -/

/-- What a basket gives back before its context is freed without settlement (R19, R20): its claims, its
reservation, its account reference and its bank pin, as far as it holds them. -/
def giveBack (c : CtxNo) (s : State) : State :=
  releasePinOf c (dropReferenceOf c (removeReservation c (removeClaimsOf c s)))

/-- VOID_BASKET on the attached context (R20). -/
def voidBasketBody (l : LaneNo) (c : CtxNo) (s : State) : State × Answer :=
  (clearLane l (freeCtx c (giveBack c s)),
    .reply .ok (ctxByte c :: enc 2 (s.ctx c).incarnation.toNat))

/-- VOID_BASKET (R20). -/
def execVoidBasket (r : Req) (s : State) : Out :=
  laneRequest 0x10 gateBasket 0 r (fun l => onCtx l (voidBasketBody l)) s

end Sys2Proof.Machine
end

