-- ==== Sys2Proof/Machine/Accounts.lean ====
section
/-! DEFINITION. Loyalty accounts and points holds (chapter 7): ATTACH_ACCOUNT, DETACH_ACCOUNT, REDEEM, CANCEL_REDEEM,
ACCOUNT_BALANCE, QUERY_ACCOUNT and the expiry of a reservation. -/

namespace Sys2Proof.Machine

/-- An account id in range (R116). -/
def accountIdOk (n : Nat) : Bool := 1 ≤ n && n ≤ maxAccountId

/-- A flag of a reply that says whether a step was taken (R185). -/
def stepFlag (b : Bool) : List Byte := encFlag b

/-! ### ATTACH_ACCOUNT (R119, R120) -/

/-- The field checks of ATTACH_ACCOUNT, in the order of R119. -/
def attachChecks (p : List Byte) : List (Bool × Nat) :=
  [ (accountIdOk (field p 0 5), 0), (field p 5 4 ≤ maxPoints, 5), (field p 9 1 ≤ 3, 9), (field p 10 1 ≤ 1, 10) ]

/-- Step 2 of R120: a reference to another account is dropped. -/
def dropOther (c : CtxNo) (id : Nat) (s : State) : State :=
  match (s.ctx c).account with
  | some a => if a.id = id then s else dropReference a.id s
  | none => s

/-- The basket already refers to the account (R120). -/
def refersTo (s : State) (c : CtxNo) (id : Nat) : Bool :=
  match (s.ctx c).account with
  | some a => a.id == id
  | none => false

/-- Steps 3 and 4 of R120: the entry is created, or takes the balance and the cut rule. With the state after,
whether the entry was created and how many reservations were cut. -/
def giveBalance (c : CtxNo) (id balance : Nat) (s : State) : State × Bool × Nat :=
  match s.account id with
  | none =>
    ({ s with accounts := s.accounts ++ [{ id := id, balance := balance, refs := 1, reservations := [] }] },
      true, 0)
  | some _ =>
    let s := changeAccount id (fun e =>
      { e with balance := balance, refs := if refersTo s c id then e.refs else e.refs + 1 }) s
    let cut := cutRule id s
    (cut.1, false, cut.2.1)

/-- The entry fields of an accepted ATTACH_ACCOUNT: balance, points available to the basket and referencing
contexts (R120). -/
def entryFields (s : State) (c : CtxNo) (id : Nat) : List Byte :=
  match s.account id with
  | some e => enc 4 e.balance ++ enc 4 (e.availableTo c) ++ enc 1 e.refs
  | none => enc 4 0 ++ enc 4 0 ++ enc 1 0

/-- ATTACH_ACCOUNT on the attached context (R119, R120). -/
def attachBody (p : List Byte) (c : CtxNo) (s : State) : State × Answer :=
  match firstBad (attachChecks p) with
  | some off => (s, badField 0 off)
  | none =>
    let id := field p 0 5
    let released := s.reserved c
    let s := dropOther c id (removeReservation c s)
    let (s, created, cuts) := giveBalance c id (field p 5 4) s
    let s := bumpRevision c (s.setCtx c { s.ctx c with
      account := some { id := id, tier := field p 9 1, trade := field p 10 1 == 1 } })
    (s, .reply .ok (enc 5 id ++ entryFields s c id ++ stepFlag created ++ enc 4 released ++ enc 2 cuts))

/-- ATTACH_ACCOUNT (R120). -/
def execAttachAccount (r : Req) (s : State) : Out :=
  laneRequest 0x09 gateBasket 11 r (fun l => onCtx l (attachBody r.payload)) s

/-! ### DETACH_ACCOUNT (R121) -/

/-- DETACH_ACCOUNT on the attached context (R121). -/
def detachBody (c : CtxNo) (s : State) : State × Answer :=
  match (s.ctx c).account with
  | none => (s, .reply .noAccount [])
  | some a =>
    let released := s.reserved c
    let s := dropReference a.id (removeReservation c s)
    let s := bumpRevision c (s.setCtx c { s.ctx c with account := none })
    (s, .reply .ok (enc 5 a.id ++ enc 4 released ++ stepFlag (s.account a.id).isNone))

/-- DETACH_ACCOUNT (R121). -/
def execDetachAccount (r : Req) (s : State) : Out :=
  laneRequest 0x0A gateBasket 0 r (fun l => onCtx l detachBody) s

/-! ### REDEEM (R122, R123) -/

/-- The minimum redemption of the schedule of a context's pinned bank (R122). A CURRENT or DRAINING bank always
has a schedule (R40); were there none the minimum would be 0 (assumption 22). -/
def State.minimumRedemption (s : State) (c : CtxNo) : Nat :=
  match (s.ctx c).attachment with
  | some a =>
    match (s.bank a.bank).schedule with
    | some x => x.minimumRedemption
    | none => 0
  | none => 0

/-- The points available to a context on an account (R117). -/
def State.available (s : State) (c : CtxNo) (id : Nat) : Nat :=
  match s.account id with
  | some e => e.availableTo c
  | none => 0

/-- A new reservation at the end of its entry's list (R123). -/
def addReservation (c : CtxNo) (id points : Nat) (s : State) : State :=
  changeAccount id (fun e => { e with reservations := e.reservations ++
    [{ ctx := c, points := points, expires := s.after (s.config.reservationLifetime * 1000) }] }) s

/-- The position of a context's reservation in its entry's list, from 1 (R123). -/
def reservationPosition (s : State) (c : CtxNo) (id : Nat) : Nat :=
  match s.account id with
  | some e => e.reservations.findIdx (·.ctx == c) + 1
  | none => 0

/-- REDEEM on the attached context (R122, R123). -/
def redeemBody (p : List Byte) (c : CtxNo) (s : State) : State × Answer :=
  let points := field p 0 4
  if 1 ≤ points ∧ points ≤ maxPoints then
    match (s.ctx c).account with
    | none => (s, .reply .noAccount [])
    | some a =>
      if points < s.minimumRedemption c then (s, .reply .belowMinimum (enc 4 (s.minimumRedemption c)))
      else if s.available c a.id < points then (s, .reply .insufficient (enc 4 (s.available c a.id)))
      else
        let left := s.available c a.id - points
        let s := bumpRevision c (addReservation c a.id points (removeReservation c s))
        (s, .reply .ok (enc 4 points ++ enc 4 left ++ enc 1 (reservationPosition s c a.id)))
  else (s, badField 0 0)

/-- REDEEM (R122, R123). -/
def execRedeem (r : Req) (s : State) : Out :=
  laneRequest 0x0B gateBasket 4 r (fun l => onCtx l (redeemBody r.payload)) s

/-! ### CANCEL_REDEEM (R124) -/

/-- CANCEL_REDEEM on the attached context (R124). -/
def cancelRedeemBody (c : CtxNo) (s : State) : State × Answer :=
  match (s.ctx c).account with
  | none => (s, .reply .noAccount [])
  | some _ => (bumpRevision c (removeReservation c s), .reply .ok (enc 4 (s.reserved c)))

/-- CANCEL_REDEEM (R124). -/
def execCancelRedeem (r : Req) (s : State) : Out :=
  laneRequest 0x0C gateBasket 0 r (fun l => onCtx l cancelRedeemBody) s

/-! ### ACCOUNT_BALANCE (R128) -/

/-- ACCOUNT_BALANCE after its length check (R128). -/
def accountBalanceBody (p : List Byte) (s : State) : State × Answer :=
  let id := field p 0 5
  match firstBad [(accountIdOk id, 0), (decide (field p 5 4 ≤ maxPoints), 5)] with
  | some off => (s, badField 0 off)
  | none =>
    match s.account id with
    | none => (s, .reply .unknownAccount [])
    | some _ =>
      let cut := cutRule id (changeAccount id (fun e => { e with balance := field p 5 4 }) s)
      let sum := match cut.1.account id with | some e => e.sum | none => 0
      (cut.1, .reply .ok (enc 5 id ++ enc 4 (field p 5 4) ++ enc 4 sum ++ enc 2 cut.2.1 ++ enc 2 cut.2.2
        ++ enc 4 (field p 5 4 - sum)))

/-- ACCOUNT_BALANCE (R128). -/
def execAccountBalance (r : Req) (s : State) : Out :=
  bulkRequest 0x29 r (withLength 9 r (accountBalanceBody r.payload)) s

/-! ### QUERY_ACCOUNT (R132) -/

/-- The contexts that refer to an account, in increasing number (R132). -/
def referring (s : State) (id : Nat) : List CtxNo := allCtxs.filter fun c => refersTo s c id

/-- A referencing context of a QUERY_ACCOUNT reply (R132): number, state in one byte (assumption 33), lane or ticket. -/
def referenceEntry (s : State) (c : CtxNo) : List Byte :=
  [ctxByte c, (s.ctx c).stateCode, (s.ctx c).laneOrTicket]

/-- A reservation of a QUERY_ACCOUNT reply (R132). -/
def reservationEntry (s : State) (r : Reservation) : List Byte :=
  [ctxByte r.ctx, laneByte? ((s.ctx r.ctx).attachment.map (·.lane))] ++ enc 4 r.points
    ++ enc 2 (s.timeLeft (some r.expires) / 1000)

/-- The fields of an accepted QUERY_ACCOUNT (R132). -/
def accountFields (s : State) (e : AccountEntry) : List Byte :=
  enc 5 e.id ++ enc 4 e.balance ++ enc 4 e.sum ++ enc 4 (e.balance - e.sum)
    ++ enc 1 e.refs ++ (referring s e.id).flatMap (referenceEntry s)
    ++ enc 2 e.reservations.length ++ e.reservations.flatMap (reservationEntry s)

/-- QUERY_ACCOUNT after its length check (R132). -/
def queryAccountBody (p : List Byte) (s : State) : State × Answer :=
  let id := field p 0 5
  if accountIdOk id then
    match s.account id with
    | none => (s, .reply .unknownAccount [])
    | some e => (s, .reply .ok (accountFields s e))
  else (s, badField 0 0)

/-- QUERY_ACCOUNT (R132). -/
def execQueryAccount (r : Req) (s : State) : Out :=
  bulkRequest 0x2A r (withLength 5 r (queryAccountBody r.payload)) s

/-! ### Expiry of a reservation (R126) -/

/-- The reservation of a context is due. -/
def State.reservationDue (s : State) (c : CtxNo) : Bool :=
  match s.reservation c with
  | some r => s.timerDue (some r.expires)
  | none => false

/-- What the expiry of a context's reservation does (R126). -/
def expireReservation (c : CtxNo) (s : State) : State :=
  let s := bumpRevision c (removeReservation c s)
  raise .holdExpired (·.addLanes (laneSetOf (lanesOf s [c]))) s

/-- RESERVATION_EXPIRY (R126). -/
def execReservationExpiry (c : CtxNo) (s : State) : Out :=
  whenLive (fun s => if s.reservationDue c then settleClaims (expireReservation c s) else s) s

end Sys2Proof.Machine
end

