-- ==== Sys2Proof/Machine/Banks.lean ====
section
/-! DEFINITION. The bank requests (chapter 3): BANK_BEGIN, OFFER_PUT, OFFERS_CLOSE, SCHEDULE_PUT, BANK_COMMIT and
BANK_ABANDON. -/

namespace Sys2Proof.Machine

/-! ### Bank records -/

/-- STAGING or READY by the section status and the schedule (R41). -/
def Bank.reevaluated (x : Bank) : Bank :=
  { x with state := if x.closed && x.schedule.isSome then .ready else .staging }

/-- Section status of a bank (R185). -/
def Bank.sectionCode (x : Bank) : Byte := if x.closed then 1 else 0

/-- The device becomes SERVING once a bank is CURRENT and the store day is above 0 (R58, R180). -/
def updateServing (s : State) : State :=
  if s.currentBank.isSome && 0 < s.device.day then
    { s with device := { s.device with serving := true } }
  else s

/-- A request that acts on the staging bank is refused BAD_STATE when there is none (R41). -/
def onStaging (body : BankNo → State → State × Answer) (s : State) : State × Answer :=
  match s.stagingBank with
  | some b => body b s
  | none => (s, .reply .badState [])

/-! ### BANK_BEGIN (R42) -/

/-- The bank as BANK_BEGIN leaves it (R42). -/
def Bank.begun (x : Bank) (generation : Nat) : Bank :=
  { x.emptied with state := .staging, generation := generation }

/-- The bank BANK_BEGIN takes (R42): the staging bank, else a FREE bank, bank 0 first. -/
def State.bankToBegin (s : State) : Option BankNo :=
  match s.stagingBank with
  | some b => some b
  | none => s.bankIn (· == .free)

/-- The answer BANK_BUSY with the DRAINING bank's generation and pin count (R42). -/
def bankBusy (s : State) : Answer :=
  match s.bankIn (· == .draining) with
  | some b => .reply .bankBusy (enc 2 (s.bank b).generation ++ enc 1 (s.bank b).pins)
  | none => .reply .bankBusy (enc 2 0 ++ enc 1 0)

/-- BANK_BEGIN after its length check (R42). -/
def bankBeginBody (p : List Byte) (s : State) : State × Answer :=
  let g := field p 0 2
  if g = 0 then (s, badField 0 0)
  else match s.bankToBegin with
    | some b => (s.setBank b ((s.bank b).begun g), .reply .ok (enc 1 b.val ++ enc 2 g))
    | none => (s, bankBusy s)

/-- BANK_BEGIN (R42). -/
def execBankBegin (r : Req) (s : State) : Out :=
  bulkRequest 0x20 r (withLength 2 r (bankBeginBody r.payload)) s

/-! ### OFFER_PUT (R43 to R45) -/

/-- Inserts an offer at the place its id gives (R45). -/
def insertOffer (o : Offer) : List Offer → List Offer
  | [] => [o]
  | x :: xs => if o.id < x.id then o :: x :: xs else x :: insertOffer o xs

/-- The first entry that fails check 3 or 4 of R44, with the refusal; `i` is the index of the first entry of
the list and `seen` holds the ids that entries may not repeat. -/
def offersRefusal (seen : List Nat) : Nat → List (List Byte) → Option Answer
  | _, [] => none
  | i, e :: es =>
    match firstBad (offerChecks e) with
    | some off => some (badField i off)
    | none =>
      if seen.contains (field e 0 2) then some (.reply .duplicate (enc 1 i ++ enc 2 (field e 0 2)))
      else offersRefusal (field e 0 2 :: seen) (i + 1) es

/-- The bank after an accepted OFFER_PUT (R45). -/
def Bank.withOffers (x : Bank) (os : List Offer) : Bank :=
  { x with offers := os.foldl (fun l o => insertOffer o l) x.offers, closed := false, state := .staging }

/-- OFFER_PUT on the staging bank (R44, R45). -/
def offerPutBody (p : List Byte) (b : BankNo) (s : State) : State × Answer :=
  let x := s.bank b
  if countOk 32 5 p then
    let es := entriesOf 32 p
    match offersRefusal (x.offers.map (·.id)) 1 es with
    | some a => (s, a)
    | none =>
      if 384 < x.offers.length + es.length then (s, .reply .full (enc 2 x.offers.length))
      else
        let y := x.withOffers (es.map offerOf)
        (s.setBank b y, .reply .ok (enc 2 y.offers.length ++ [y.sectionCode, y.state.code]))
  else (s, badLength)

/-- OFFER_PUT (R44, R45). -/
def execOfferPut (r : Req) (s : State) : Out := bulkRequest 0x21 r (onStaging (offerPutBody r.payload)) s

/-! ### OFFERS_CLOSE (R48) -/

/-- The CRC-32 over the record images of a bank's offers in increasing id order (R48, R190). -/
def Bank.offersCheck (x : Bank) : BitVec 32 := crc32 (x.offers.flatMap Offer.image)

/-- OFFERS_CLOSE on the staging bank (R48). -/
def offersCloseBody (p : List Byte) (b : BankNo) (s : State) : State × Answer :=
  let x := s.bank b
  if field p 0 2 = x.offers.length ∧ field p 2 4 = x.offersCheck.toNat then
    let y := Bank.reevaluated { x with closed := true }
    (s.setBank b y, .reply .ok (enc 2 y.offers.length ++ [y.state.code]))
  else (s, .reply .mismatch (enc 2 x.offers.length ++ enc 4 x.offersCheck.toNat))

/-- OFFERS_CLOSE (R48). -/
def execOffersClose (r : Req) (s : State) : Out :=
  bulkRequest 0x22 r (withLength 6 r (onStaging (offersCloseBody r.payload))) s

/-! ### SCHEDULE_PUT (R46, R47) -/

/-- SCHEDULE_PUT on the staging bank (R47). -/
def schedulePutBody (p : List Byte) (b : BankNo) (s : State) : State × Answer :=
  match firstBad (scheduleChecks p) with
  | some off => (s, badField 0 off)
  | none =>
    let y := Bank.reevaluated { s.bank b with schedule := some (scheduleOf p) }
    (s.setBank b y, .reply .ok [y.state.code])

/-- SCHEDULE_PUT (R47). -/
def execSchedulePut (r : Req) (s : State) : Out :=
  bulkRequest 0x23 r (withLength 18 r (onStaging (schedulePutBody r.payload))) s

/-! ### BANK_COMMIT (R49, R50, R58) -/

/-- The former CURRENT bank after a commit (R50). -/
def Bank.replaced (x : Bank) : Bank := if x.pins = 0 then x.emptied else { x with state := .draining }

/-- What an accepted BANK_COMMIT does to the former CURRENT bank, if there is one. -/
def replaceCurrent (s : State) : State :=
  match s.currentBank with
  | some b => s.setBank b (s.bank b).replaced
  | none => s

/-- The answer NOT_READY with what the staging bank lacks (R49, R185). -/
def notReady (s : State) : Answer :=
  match s.stagingBank with
  | some b =>
    .reply .notReady ([(s.bank b).state.code, (s.bank b).sectionCode] ++ encFlag (s.bank b).schedule.isSome)
  | none => .reply .notReady [0, 0, 0]

/-- The former bank's fields of an accepted BANK_COMMIT: number, new state and pin count, or zeros when there
was no former bank (R50; assumption 12). `old` is the state before the commit and `new` the one after. -/
def formerFields (old new : State) : List Byte :=
  match old.currentBank with
  | some b => enc 1 b.val ++ [(new.bank b).state.code] ++ enc 1 (new.bank b).pins
  | none => [0, 0, 0]

/-- The commit of READY bank `b` (R50). -/
def commitBank (b : BankNo) (s : State) : State :=
  let s' := replaceCurrent s
  updateServing (s'.setBank b { s'.bank b with state := .current, pins := 0 })

/-- The generation a READY bank must be greater than (R49). -/
def staleAgainst (s : State) (b : BankNo) : Option Nat :=
  match s.currentBank with
  | some cur => if (s.bank b).generation ≤ (s.bank cur).generation then some (s.bank cur).generation else none
  | none => none

/-- BANK_COMMIT after its length check (R49, R50). -/
def bankCommitBody (s : State) : State × Answer :=
  match s.bankIn (· == .ready) with
  | none => (s, notReady s)
  | some b =>
    match staleAgainst s b with
    | some g => (s, .reply .staleGeneration (enc 2 g))
    | none =>
      let s' := commitBank b s
      (s', .reply .ok (enc 1 b.val ++ enc 2 (s.bank b).generation ++ formerFields s s'))

/-- BANK_COMMIT (R49, R50). -/
def execBankCommit (r : Req) (s : State) : Out := bulkRequest 0x24 r (withLength 0 r bankCommitBody) s

/-! ### BANK_ABANDON (R51) -/

/-- BANK_ABANDON on the staging bank (R51). -/
def bankAbandonBody (b : BankNo) (s : State) : State × Answer :=
  (s.setBank b (s.bank b).emptied, .reply .ok (enc 1 b.val ++ enc 2 (s.bank b).generation))

/-- BANK_ABANDON (R51). -/
def execBankAbandon (r : Req) (s : State) : Out :=
  bulkRequest 0x25 r (withLength 0 r (onStaging bankAbandonBody)) s

end Sys2Proof.Machine
end

