-- ==== Sys2Proof/Machine/Coupons.lean ====
section
/-! DEFINITION. Coupons and the claim table (chapter 5): PRESENT_COUPON, WITHDRAW_COUPON and QUERY_CLAIM. -/

namespace Sys2Proof.Machine

/-! ### Coupon lists (R86, R87) -/

/-- The number of STORE_VALUE coupons of a list. -/
def storeValues (cs : List Coupon) : Nat := (cs.filter fun c => c.kind.code == 2).length

/-- The position of the first coupon that satisfies a condition, counting from `n` (R86). -/
def positionFrom (p : Coupon → Bool) : Nat → List Coupon → Option Nat
  | _, [] => none
  | n, c :: cs => if p c then some n else positionFrom p (n + 1) cs

/-- The position of the first coupon that satisfies a condition (R86). -/
def positionOf (p : Coupon → Bool) (cs : List Coupon) : Option Nat := positionFrom p 1 cs

/-- A coupon keys the given offer (R86). -/
def Coupon.keys (offer : Nat) (c : Coupon) : Bool :=
  match c.kind with
  | .offerKey o => o == offer
  | .storeValue _ _ => false

/-- The offer a bank holds under an id. -/
def Bank.offer (x : Bank) (id : Nat) : Option Offer := x.offers.find? (·.id == id)

/-- An offer's window contains a store day (R43). -/
def Offer.inWindow (o : Offer) (day : Nat) : Bool := o.firstDay ≤ day && day ≤ o.lastDay

/-! ### Claims (R89, R90) -/

/-- The entry of a serial. -/
def State.claim (s : State) (serial : Nat) : Option ClaimEntry := s.claims.find? (·.serial == serial)

/-- The owner's state, in one byte (assumption 33), and lane that a CLAIMED refusal carries (R93, R95): lane 0 for a
parked owner (assumption 12). -/
def ownerFields (x : Context) : List Byte :=
  match x.place with
  | .attached a => [1, laneByte a.lane]
  | .parked _ => [2, 0]
  | .free => [0, 0]

/-- The refusal of the claim lookup, if any (R89, R93). -/
def lookupRefusal (s : State) (serial : Nat) : Option Answer :=
  if serial = 0 then none
  else match s.claim serial with
    | none => none
    | some e =>
      match e.state with
      | .claimed owner _ => some (.reply .claimed (ownerFields (s.ctx owner)))
      | .spent day => some (.reply .spent (enc 2 day))

/-- The first SPENT entry of the table: the one an eviction removes (R90). -/
def State.oldestSpent (s : State) : Option ClaimEntry := s.claims.find? ClaimEntry.isSpent

/-- A claim made for a serial (R90): the table after it and the evicted serial, or none when the table is full
of CLAIMED entries. -/
def makeClaim (c : CtxNo) (serial : Nat) (s : State) : Option (State × Option Nat) :=
  let e : ClaimEntry := { serial := serial, state := .claimed c (s.ctx c).incarnation }
  if serial = 0 then some (s, none)
  else if s.claims.length < 96 then some ({ s with claims := s.claims ++ [e] }, none)
  else match s.oldestSpent with
    | some old => some ({ s with claims := s.claims.erase old ++ [e] }, some old.serial)
    | none => none

/-- The start of claim exhaustion (R91): CLAIMS_FULL is raised, which changes nothing while it is pending. -/
def startExhaustion (s : State) : State := raise .claimsFull id s

/-! ### PRESENT_COUPON (R93 to R95) -/

/-- The coupon a payload of PRESENT_COUPON describes (R94, R187), ACTIVE. -/
def couponOf (p : List Byte) : Coupon :=
  { serial := field p 0 6
    kind := if field p 6 1 = 1 then .offerKey (field p 7 2) else .storeValue (field p 9 4) (field p 13 4)
    active := true }

/-- Checks 1 and 2 of R93. Where value and minimum spend are both out of range R93 names no order: the model names the
value (assumption 15). -/
def couponChecks (p : List Byte) : List (Bool × Nat) :=
  let kind := field p 6 1
  [ (kind == 1 || kind == 2, 6),
    (kind != 1 || 1 ≤ field p 7 2, 7),
    (kind != 2 || (1 ≤ field p 9 4 && field p 9 4 ≤ maxPrice), 9),
    (kind != 2 || field p 13 4 ≤ maxAmount, 13) ]

/-- The counts of coupons that a reply carries: all, and STORE_VALUE (R93, R94, R97). -/
def couponCounts (cs : List Coupon) : List Byte := enc 1 cs.length ++ enc 1 (storeValues cs)

/-- Checks 3 to 6 of R93, in order. -/
def listRefusal (k : Coupon) (cs : List Coupon) : Option Answer :=
  if 12 ≤ cs.length then some (.reply .full (couponCounts cs))
  else if k.kind.code = 2 ∧ 4 ≤ storeValues cs then some (.reply .full (couponCounts cs))
  else match (if k.serial = 0 then none else positionOf (·.serial == k.serial) cs) with
    | some n => some (.reply .duplicate (enc 1 n))
    | none =>
      match k.kind with
      | .offerKey o => (positionOf (Coupon.keys o) cs).map fun n => .reply .duplicate (enc 1 n)
      | .storeValue _ _ => none

/-- Checks 7 and 8 of R93, against the pinned bank. -/
def offerRefusal (k : Coupon) (a : Attachment) (x : Bank) : Option Answer :=
  match k.kind with
  | .storeValue _ _ => none
  | .offerKey id =>
    match x.offer id with
    | none => some (.reply .unknownOffer (enc 2 id ++ enc 2 a.generation))
    | some o =>
      if o.inWindow a.day then none
      else some (.reply .outOfWindow (enc 2 id ++ enc 2 o.firstDay ++ enc 2 o.lastDay ++ enc 2 a.day))

/-- Whether a claim evicted a SPENT entry, and the evicted serial, 0 when it did not (R94; assumption 12). -/
def evictionFields : Option Nat → List Byte
  | some serial => encFlag true ++ enc 6 serial
  | none => encFlag false ++ enc 6 0

/-- The coupon joins the list (R94). -/
def appendCoupon (c : CtxNo) (k : Coupon) (s : State) : State :=
  bumpRevision c (s.setCtx c { s.ctx c with coupons := (s.ctx c).coupons ++ [k] })

/-- Checks 9 and 10 of R93 and the acceptance of R94. The CLAIMS_FULL reply carries the entries held as its one field
(assumption 32). -/
def claimCoupon (k : Coupon) (c : CtxNo) (s : State) : State × Answer :=
  match lookupRefusal s k.serial with
  | some a => (s, a)
  | none =>
    match makeClaim c k.serial s with
    | none => (startExhaustion s, .reply .claimsFull (enc 2 s.claims.length))
    | some (s', evicted) =>
      let s' := appendCoupon c k s'
      let x := s'.ctx c
      (s', .reply .ok (enc 1 x.coupons.length ++ enc 2 x.revision.toNat ++ couponCounts x.coupons
        ++ evictionFields evicted))

/-- PRESENT_COUPON on the attached context (R93, R94). -/
def presentCouponBody (p : List Byte) (c : CtxNo) (s : State) : State × Answer :=
  match firstBad (couponChecks p) with
  | some off => (s, badField 0 off)
  | none =>
    let k := couponOf p
    match listRefusal k (s.ctx c).coupons with
    | some a => (s, a)
    | none =>
      match (s.ctx c).attachment.bind fun a => offerRefusal k a (s.bank a.bank) with
      | some a => (s, a)
      | none => claimCoupon k c s

/-- PRESENT_COUPON (R93, R94). -/
def execPresentCoupon (r : Req) (s : State) : Out :=
  laneRequest 0x07 gateBasket 17 r (fun l => onCtx l (presentCouponBody r.payload)) s

/-! ### WITHDRAW_COUPON (R96, R97) -/

/-- The claim-table entry of a withdrawn coupon goes (R97). -/
def releaseSerial (c : CtxNo) (serial : Nat) (s : State) : State :=
  if serial = 0 then s else removeClaims (fun e => e.serial == serial && e.ownedBy s c) s

/-- WITHDRAW_COUPON on the attached context (R96, R97). -/
def withdrawCouponBody (p : List Byte) (c : CtxNo) (s : State) : State × Answer :=
  let n := field p 0 1
  match (if n = 0 then none else (s.ctx c).coupons[n - 1]?) with
  | none => (s, badField 0 0)
  | some k =>
    let s := releaseSerial c k.serial s
    let s := bumpRevision c (s.setCtx c { s.ctx c with coupons := (s.ctx c).coupons.eraseIdx (n - 1) })
    let x := s.ctx c
    (s, .reply .ok (enc 1 n ++ [k.kind.code] ++ enc 6 k.serial ++ enc 2 x.revision.toNat
      ++ couponCounts x.coupons))

/-- WITHDRAW_COUPON (R97). -/
def execWithdrawCoupon (r : Req) (s : State) : Out :=
  laneRequest 0x08 gateBasket 1 r (fun l => onCtx l (withdrawCouponBody r.payload)) s

/-! ### QUERY_CLAIM (R102) -/

/-- The position of a serial's entry in insertion order, from 1 (R102). -/
def claimPosition (serial : Nat) (es : List ClaimEntry) : Nat := es.findIdx (·.serial == serial) + 1

/-- The fields QUERY_CLAIM gives for a serial (R102); the claim state and the owner's state have one byte each
(assumption 33). -/
def claimFields (serial : Nat) (s : State) : List Byte :=
  match s.claim serial with
  | none => [0]
  | some e =>
    match e.state with
    | .claimed c inc =>
      [1] ++ enc 1 (claimPosition serial s.claims) ++ [ctxByte c] ++ enc 2 inc.toNat
        ++ [(s.ctx c).stateCode, (s.ctx c).laneOrTicket]
    | .spent day => [2] ++ enc 1 (claimPosition serial s.claims) ++ enc 2 day

/-- The number of SPENT entries. -/
def State.spentClaims (s : State) : Nat := (s.claims.filter ClaimEntry.isSpent).length

/-- QUERY_CLAIM after its length check (R102). -/
def queryClaimBody (p : List Byte) (s : State) : State × Answer :=
  let serial := field p 0 6
  if serial = 0 then (s, badField 0 0)
  else (s, .reply .ok (enc 2 s.claims.length ++ enc 2 s.spentClaims ++ claimFields serial s))

/-- QUERY_CLAIM (R102). -/
def execQueryClaim (r : Req) (s : State) : Out :=
  bulkRequest 0x2B r (withLength 6 r (queryClaimBody r.payload)) s

end Sys2Proof.Machine
end

