-- ==== Sys2Proof/Machine/Device.lean ====
section
/-! DEFINITION. The device-level requests of chapters 6 and 11 (authority table, configuration, store day,
conditions, identification, status, restart) and the resets. -/

namespace Sys2Proof.Machine

/-! ### AUTHORITY_LOAD, AUTHORITY_REMOVE, AUTHORITY_CLEAR (R104 to R106) -/

/-- The first entry that fails check 2 or 3 of R104, with the refusal; `seen` holds the ids of the entries
before it. -/
def supervisorsRefusal (seen : List Nat) : Nat → List (List Byte) → Option Answer
  | _, [] => none
  | i, e :: es =>
    match firstBad (supervisorChecks e) with
    | some off => some (badField i off)
    | none =>
      if seen.contains (field e 0 3) then some (.reply .duplicate (enc 1 i ++ enc 3 (field e 0 3)))
      else supervisorsRefusal (field e 0 3 :: seen) (i + 1) es

/-- The authority table holds a supervisor. -/
def holdsSupervisor (t : List Supervisor) (id : Nat) : Bool := t.any (·.id == id)

/-- An entry replaces the held entry of its id, or is added (R105). -/
def putSupervisor (t : List Supervisor) (e : Supervisor) : List Supervisor :=
  if holdsSupervisor t e.id then t.map fun x => if x.id == e.id then e else x else t ++ [e]

/-- AUTHORITY_LOAD (R104, R105). It makes its own length check. -/
def authorityLoadBody (p : List Byte) (s : State) : State × Answer :=
  if countOk 10 6 p then
    let es := entriesOf 10 p
    match supervisorsRefusal [] 1 es with
    | some a => (s, a)
    | none =>
      let new := (es.map supervisorOf).filter fun e => !holdsSupervisor s.authority e.id
      if 24 < s.authority.length + new.length then (s, .reply .full (enc 2 s.authority.length))
      else
        let t := (es.map supervisorOf).foldl putSupervisor s.authority
        ({ s with authority := t },
          .reply .ok (enc 2 t.length ++ enc 2 new.length ++ enc 2 (es.length - new.length)))
  else (s, badLength)

/-- AUTHORITY_LOAD (R104, R105). -/
def execAuthorityLoad (r : Req) (s : State) : Out := bulkRequest 0x26 r (authorityLoadBody r.payload) s

/-- AUTHORITY_REMOVE after its length check (R106). -/
def authorityRemoveBody (p : List Byte) (s : State) : State × Answer :=
  let id := field p 0 3
  if id = 0 then (s, badField 0 0)
  else if holdsSupervisor s.authority id then
    let t := s.authority.filter (·.id != id)
    ({ s with authority := t }, .reply .ok (enc 3 id ++ enc 2 t.length))
  else (s, .reply .noAuthority (enc 3 id))

/-- AUTHORITY_REMOVE (R106). -/
def execAuthorityRemove (r : Req) (s : State) : Out :=
  bulkRequest 0x27 r (withLength 3 r (authorityRemoveBody r.payload)) s

/-- AUTHORITY_CLEAR after its length check (R106). -/
def authorityClearBody (s : State) : State × Answer :=
  ({ s with authority := [] }, .reply .ok (enc 2 s.authority.length))

/-- AUTHORITY_CLEAR (R106). -/
def execAuthorityClear (r : Req) (s : State) : Out :=
  bulkRequest 0x28 r (withLength 0 r authorityClearBody) s

/-! ### CONFIGURE (R2, R146, R179) -/

/-- A lane record under a new configuration (R2). -/
def Lane.configured (x : Lane) (on : Bool) (mode : Tracking) : Lane :=
  { x with state := if on then .idle else .off, tracking := mode }

/-- The lane records under the configuration in force (R2). -/
def configureLanes (s : State) : State :=
  { s with lanes := Vector.ofFn fun l => (s.lane l).configured (s.laneEnabled l) s.config.trackingDefault }

/-- The whole configuration is replaced (R2, R146, R179). -/
def takeConfiguration (x : Configuration) (s : State) : State :=
  configureLanes { s with config := x, sched := { s.sched with previous := .none } }

/-- The enabled lanes. -/
def enabledLanes (s : State) : List LaneNo := allLanes.filter s.laneEnabled

/-- CONFIGURE after its length check (R179). -/
def configureBody (p : List Byte) (s : State) : State × Answer :=
  if (basketLanes s).isEmpty then
    match firstBad (configChecks p) with
    | some off => (s, badField 0 off)
    | none =>
      let s := takeConfiguration (configOf p) s
      (s, .reply .ok (enc 2 (laneSetOf (enabledLanes s)).toNat))
  else (s, .reply .busy (enc 2 (laneSetOf (basketLanes s)).toNat))

/-- CONFIGURE (R179). -/
def execConfigure (r : Req) (s : State) : Out :=
  bulkRequest 0x2C r (withLength 28 r (configureBody r.payload)) s

/-! ### DAY_OPEN (R101, R180) -/

/-- The store day is opened (R180). -/
def openDay (day : Nat) (s : State) : State :=
  updateServing (removeClaims ClaimEntry.isSpent { s with device := { s.device with day := day } })

/-- DAY_OPEN after its length check (R180). -/
def dayOpenBody (p : List Byte) (s : State) : State × Answer :=
  let day := field p 0 2
  if (basketLanes s).isEmpty then
    if s.device.day < day then (openDay day s, .reply .ok (enc 2 day ++ enc 2 s.spentClaims))
    else (s, badField 0 0)
  else (s, .reply .busy [])

/-- DAY_OPEN (R180). -/
def execDayOpen (r : Req) (s : State) : Out :=
  bulkRequest 0x2D r (withLength 2 r (dayOpenBody r.payload)) s

/-! ### CLEAR_CONDITIONS and SET_MASK (R178) -/

/-- The pending set and the mask set a reply carries (R178). -/
def conditionSets (s : State) : List Byte := enc 2 s.pendingSet ++ enc 2 s.conds.mask.toNat

/-- CLEAR_CONDITIONS after its length check (R178, R188). -/
def clearConditionsBody (p : List Byte) (s : State) : State × Answer :=
  if field p 0 2 ≤ 0xFF then
    let s := clearClasses (field p 0 2) s
    (s, .reply .ok (conditionSets s))
  else (s, badField 0 0)

/-- CLEAR_CONDITIONS (R178). -/
def execClearConditions (r : Req) (s : State) : Out :=
  bulkRequest 0x2E r (withLength 2 r (clearConditionsBody r.payload)) s

/-- SET_MASK after its length check (R178, R188). -/
def setMaskBody (p : List Byte) (s : State) : State × Answer :=
  if field p 0 2 ≤ 0xFF then
    let s := setMask (BitVec.ofNat 8 (field p 0 2)) s
    (s, .reply .ok (conditionSets s))
  else (s, badField 0 0)

/-- SET_MASK (R178). -/
def execSetMask (r : Req) (s : State) : Out :=
  bulkRequest 0x2F r (withLength 2 r (setMaskBody r.payload)) s

/-! ### IDENTIFY and STATUS (R181, R189) -/

/-- The bit rate code (R162, R185). -/
def State.rateCode (s : State) : Byte := s.device.bitRate.setWidth 8

/-- The capacities IDENTIFY reports, in the order of R181. -/
def capacities : List Nat := [8, 12, 128, 12, 384, 96, 12, 24, 24, 8, 24, 240]

/-- The fields of IDENTIFY (R181, R189). -/
def identifyFields (s : State) : List Byte :=
  enc 2 0x2C71 ++ enc 2 0x0408 ++ [Config.siliconRevision] ++ capacities.flatMap (enc 2) ++ [s.rateCode]

/-- IDENTIFY (R181). -/
def execIdentify (r : Req) (s : State) : Out :=
  bulkRequest 0x30 r (withLength 0 r fun s => (s, .reply .ok (identifyFields s))) s

/-- A bank of STATUS part DEVICE (R189). -/
def bankStatus (s : State) (b : BankNo) : List Byte :=
  let x := s.bank b
  enc 1 b.val ++ [x.state.code] ++ enc 2 x.generation ++ enc 1 x.pins ++ enc 2 x.offers.length
    ++ [x.sectionCode] ++ encFlag x.schedule.isSome

/-- An inbound queue of STATUS part DEVICE (R189). -/
def inboundStatus (x : Inbound) : List Byte := enc 1 x.frames.length ++ encFlag x.congested

/-- The resolve unit state, in one byte (assumption 33), and the resolution in flight of STATUS part DEVICE (R181,
R189). -/
def flightStatus (s : State) : List Byte :=
  match s.sched.flight with
  | some f => [1, laneByte f.lane, ctxByte f.ctx]
  | none => [0, 0, 0]

/-- STATUS part DEVICE (R181, R189); the device state and the output hold state have one byte each (assumption 33). -/
def deviceStatus (s : State) : List Byte :=
  encFlag s.device.serving ++ enc 2 s.device.day ++ bankStatus s 0 ++ bankStatus s 1 ++ conditionSets s
    ++ inboundStatus s.pool ++ inboundStatus s.bulk
    ++ enc 1 s.occupied ++ enc 1 s.mainQ.reserved ++ enc 1 (24 - (s.occupied + s.mainQ.reserved))
    ++ [s.link.hold.code] ++ enc 2 (s.timeLeft s.link.holdTimer) ++ flightStatus s
    ++ enc 2 s.claims.length ++ enc 2 s.spentClaims ++ enc 2 s.accounts.length ++ enc 2 s.authority.length

/-- The frames placed that STATUS reports for a lane: 0 when it is not SETTLING (R189). -/
def State.framesPlaced (s : State) (l : LaneNo) : Nat :=
  match s.stream l with
  | some st => st.placed
  | none => 0

/-- A lane of STATUS part LANES (R189). -/
def laneStatus (s : State) (l : LaneNo) : List Byte :=
  let x := s.lane l
  [x.state.code, x.tracking.code, ctxByte? x.ctx] ++ enc 1 x.idleStage ++ encFlag (s.waiting l)
    ++ enc 1 x.passOver ++ enc 1 (s.framesPlaced l)

/-- A parked basket of STATUS part PARK (R153, R189). -/
def parkStatus (s : State) (e : ParkEntry) : List Byte :=
  match (s.ctx e.ctx).parking with
  | some p => enc 1 e.ticket ++ [ctxByte e.ctx] ++ enc 2 ((s.now - p.since) / 1000)
      ++ enc 2 (s.timeLeft (some p.expires) / 1000)
  | none => enc 1 e.ticket ++ [ctxByte e.ctx] ++ enc 2 0 ++ enc 2 0

/-- STATUS part PARK: the number of parked baskets and the park list (R153, R189). -/
def parkListStatus (s : State) : List Byte :=
  enc 2 s.parks.list.length ++ s.parks.list.flatMap (parkStatus s)

/-- STATUS after its length check (R181). -/
def statusBody (p : List Byte) (s : State) : State × Answer :=
  let part := field p 0 1
  if part = 1 then (s, .reply .ok (deviceStatus s))
  else if part = 2 then (s, .reply .ok (allLanes.flatMap (laneStatus s)))
  else if part = 3 then (s, .reply .ok (parkListStatus s))
  else (s, badField 0 0)

/-- STATUS (R181). -/
def execStatus (r : Req) (s : State) : Out := bulkRequest 0x31 r (withLength 1 r (statusBody r.payload)) s

/-! ### RESTART (R181) -/

/-- RESTART after its length check (R181): nothing more is taken. -/
def restartBody (s : State) : State × Answer :=
  ({ s with device := { s.device with restart := .replying } }, .reply .ok [])

/-- RESTART (R181). -/
def execRestart (r : Req) (s : State) : Out := bulkRequest 0x32 r (withLength 0 r restartBody) s

/-! ### Resets (R162, R182) -/

/-- Until when TXD is held quiet after a reset: 20 ms when the reset cuts a frame (R182). -/
def State.quietAfterCut (s : State) : Option Nat :=
  if s.link.tx.isSome then some (s.after 20) else s.link.quietUntil

/-- The STARTED notice (R182, R185, R189): lane 0, tag 0, the cause and the bit rate code. -/
def startedFrame (cause : Byte) (rate : BitVec 2) : Frame :=
  { kind := 0x62, lane := 0, tag := 0, payload := [cause, rate.setWidth 8] }

/-- Every block at the value a hard reset gives it (R182), the main queue empty. The model's command queue, the
count of open choices and the time base go on. -/
def hardValues (s : State) : State :=
  { State.reset with
    pending := s.pending, now := s.now, draws := s.draws
    link := { State.reset.link with quietUntil := s.quietAfterCut }
    mainQ := { State.reset.mainQ with frames := [] } }

/-- The cause a hard reset reports: LINE when RESETn returns high, POWER at power-up (R182, R185). -/
def State.hardCause (s : State) : Byte := if s.device.resetLow then 2 else 1

/-- The bit rate is read from the straps (R162) and STARTED is placed (R182). -/
def started (cause : Byte) (straps : BitVec 2) (s : State) : State :=
  placeFrame (startedFrame cause straps) { s with device := { s.device with bitRate := straps } }

/-- HARD_RESET (R182): at power-up, and when RESETn returns high. -/
def execHardReset (straps : BitVec 2) (s : State) : Out :=
  .next (started s.hardCause straps (hardValues s))

/-- RESETN_LOW (R162): the device is held in hard reset. -/
def execResetnLow (s : State) : Out :=
  let s' := hardValues s
  .next { s' with device := { s'.device with resetLow := true, bitRate := s.device.bitRate } }

/-- The state of the blocks after a soft reset, before STARTED is placed (R182): configuration, mask and
authority table are kept, and the lanes follow the kept configuration (R1). -/
def softValues (s : State) : State :=
  configureLanes { hardValues s with
    config := s.config, authority := s.authority
    conds := { State.reset.conds with mask := s.conds.mask } }

/-- SOFT_RESET (R181, R182): taken once the RESTART reply has been transmitted. -/
def execSoftReset (straps : BitVec 2) (s : State) : Out :=
  whenLive (fun s => if s.device.restart = .due then started 3 straps (softValues s) else s) s

end Sys2Proof.Machine
end

