-- ==== Sys2Proof/Machine/Lines.lean ====
section
/-! DEFINITION. The line requests (chapter 2) and the override requests (chapter 6): ADD_LINE, SET_QTY, VOID_LINE,
OVERRIDE and CLEAR_OVERRIDE. -/

namespace Sys2Proof.Machine

/-! ### Naming a line (R26) -/

/-- The line a line number names (R26). -/
def Context.lineNamed (x : Context) (n : Nat) : Option Line :=
  if 1 ≤ n ∧ n ≤ 128 ∧ n < x.nextLine then x.lines.find? (·.number == n) else none

/-- Replaces a line of a list by its number. -/
def replaceLine (l : Line) (ls : List Line) : List Line :=
  ls.map fun x => if x.number == l.number then l else x

/-- The answer to a request that names a VOIDED line (R26, R37): the line number and its state. -/
def voidedLine (l : Line) : Answer := .reply .badState (enc 1 l.number ++ [l.flags])

/-- The shared first checks of the requests that name a line (R26): the line number stands at offset 0. -/
def onLine (p : List Byte) (c : CtxNo) (body : Line → State → State × Answer) (s : State) :
    State × Answer :=
  match (s.ctx c).lineNamed (field p 0 1) with
  | none => (s, badField 0 0)
  | some l => if l.voided then (s, voidedLine l) else body l s

/-- A change of the lines of a context: the lines are written and the revision moves (R7, R34). -/
def changeLines (c : CtxNo) (ls : List Line) (s : State) : State :=
  bumpRevision c (s.setCtx c { s.ctx c with lines := ls })

/-- The gross and the counts of lines that the replies of R37 carry. -/
def lineFigures (x : Context) : List Byte :=
  enc 4 x.gross ++ enc 1 x.lines.length ++ enc 1 x.activeLines

/-! ### ADD_LINE (R27, R28) -/

/-- The field checks of ADD_LINE, in the order of R27. -/
def addLineChecks (p : List Byte) : List (Bool × Nat) :=
  [ (1 ≤ field p 0 4, 0),
    (field p 4 1 ≤ 63, 4),
    (1 ≤ field p 5 2 && field p 5 2 ≤ maxQty, 5),
    (field p 7 4 ≤ maxPrice, 7),
    (field p 11 4 ≤ field p 7 4, 11),
    (field p 15 1 ≤ 1, 15) ]

/-- The line an ADD_LINE payload describes, with its number (R28). -/
def newLine (p : List Byte) (n : Nat) : Line :=
  { number := n, item := field p 0 4, dept := field p 4 1, noOffers := field p 15 1 == 1, qty := field p 5 2
    list := field p 7 4, floor := field p 11 4, voided := false, override := none }

/-- The line joins the list and the next line number moves (R24, R28). -/
def appendLine (c : CtxNo) (l : Line) (s : State) : State :=
  bumpRevision c (s.setCtx c { s.ctx c with
    lines := (s.ctx c).lines ++ [l], nextLine := (s.ctx c).nextLine + 1 })

/-- ADD_LINE on the attached context (R27, R28, R37). The FULL reply carries the lines held as its one field
(assumption 32). -/
def addLineBody (p : List Byte) (c : CtxNo) (s : State) : State × Answer :=
  match firstBad (addLineChecks p) with
  | some off => (s, badField 0 off)
  | none =>
    let x := s.ctx c
    if 128 ≤ x.lines.length then (s, .reply .full (enc 1 x.lines.length))
    else if maxAmount < x.gross + field p 5 2 * field p 7 4 then (s, .reply .totalLimit (enc 4 x.gross))
    else
      let s := appendLine c (newLine p x.nextLine) s
      (s, .reply .ok (enc 1 x.nextLine ++ lineFigures (s.ctx c)))

/-- ADD_LINE (R27, R28). -/
def execAddLine (r : Req) (s : State) : Out :=
  laneRequest 0x02 gateBasket 16 r (fun l => onCtx l (addLineBody r.payload)) s

/-! ### Supervisors and the cumulative basket reduction (R103, R107, R111) -/

/-- The override reduction of a line (R107): 0 for a VOIDED line and for one not overridden by `sup`. -/
def Line.reductionBy (sup : Nat) (l : Line) : Nat :=
  match l.override with
  | some o => if l.voided || o.supervisor != sup then 0 else l.qty * (l.list - o.price)
  | none => 0

/-- A supervisor's cumulative basket reduction over a line list (R107). -/
def cumulative (sup : Nat) (ls : List Line) : Nat := (ls.map (Line.reductionBy sup)).sum

/-- The reduction of a unit price in basis points (R107). -/
def reductionPoints (list price : Nat) : Nat := if list = 0 then 0 else (list - price) * 10000 / list

/-- The entry of a supervisor in the authority table (R103). -/
def State.supervisor (s : State) (id : Nat) : Option Supervisor := s.authority.find? (·.id == id)

/-- The cap the check of SET_QTY uses: 0 for a supervisor not in the table (R111). -/
def State.capOf (s : State) (id : Nat) : Nat :=
  match s.supervisor id with
  | some e => e.basketCap
  | none => 0

/-- The supervisor cap check of SET_QTY (R31, R111): the supervisor the change is refused for. -/
def capRefusal (s : State) (old new : Line) (ls : List Line) : Option Nat :=
  match old.override with
  | some o =>
    if old.qty < new.qty ∧ s.capOf o.supervisor < cumulative o.supervisor ls then some o.supervisor
    else none
  | none => none

/-! ### SET_QTY (R29, R30) -/

/-- SET_QTY on an ACTIVE line (R29, R30, R37). -/
def setQtyBody (p : List Byte) (c : CtxNo) (l : Line) (s : State) : State × Answer :=
  let q := field p 1 2
  let x := s.ctx c
  if 1 ≤ q ∧ q ≤ maxQty then
    let new := { l with qty := q }
    let ls := replaceLine new x.lines
    if maxAmount < grossOf ls then (s, .reply .totalLimit (enc 4 x.gross))
    else match capRefusal s l new ls with
      | some sup => (s, .reply .limit (enc 1 l.number ++ enc 3 sup))
      | none =>
        let s := changeLines c ls s
        (s, .reply .ok (enc 1 l.number ++ enc 2 q ++ lineFigures (s.ctx c)))
  else (s, badField 0 1)

/-- SET_QTY (R29, R30). -/
def execSetQty (r : Req) (s : State) : Out :=
  laneRequest 0x03 gateBasket 3 r (fun l => onCtx l fun c => onLine r.payload c (setQtyBody r.payload c)) s

/-! ### VOID_LINE (R32) -/

/-- VOID_LINE on an ACTIVE line (R32, R37). -/
def voidLineBody (c : CtxNo) (l : Line) (s : State) : State × Answer :=
  let new := { l with voided := true }
  let s := changeLines c (replaceLine new (s.ctx c).lines) s
  (s, .reply .ok (enc 1 l.number ++ [new.flags] ++ lineFigures (s.ctx c)))

/-- VOID_LINE (R32). -/
def execVoidLine (r : Req) (s : State) : Out :=
  laneRequest 0x04 gateBasket 1 r (fun l => onCtx l fun c => onLine r.payload c (voidLineBody c)) s

/-! ### OVERRIDE (R108, R109) -/

/-- The field checks of OVERRIDE (R108, check 3): the supervisor id, then the price (assumption 15). -/
def overrideChecks (p : List Byte) : List (Bool × Nat) :=
  [ (1 ≤ field p 5 3, 5), (field p 1 4 ≤ maxPrice, 1) ]

/-- OVERRIDE on an ACTIVE line (R108, R109, R115). The reply BELOW_FLOOR sends the level in one byte and OK the basis
points in two (assumption 14); LIMIT sends LINE or BASKET in one byte (assumption 33). -/
def overrideBody (p : List Byte) (c : CtxNo) (l : Line) (s : State) : State × Answer :=
  match firstBad (overrideChecks p) with
  | some off => (s, badField 0 off)
  | none =>
    let price := field p 1 4
    let sup := field p 5 3
    match s.supervisor sup with
    | none => (s, .reply .noAuthority (enc 3 sup))
    | some e =>
      if l.list < price then (s, .reply .overList (enc 4 l.list))
      else
        let bp := reductionPoints l.list price
        if e.lineLimit < bp then (s, .reply .limit ([1] ++ enc 2 bp ++ enc 2 e.lineLimit))
        else if e.level ≠ 3 ∧ price < l.floor then
          (s, .reply .belowFloor (enc 4 l.floor ++ enc 1 e.level))
        else
          let new := { l with override := some { price := price, supervisor := sup, reason := field p 8 1 } }
          let ls := replaceLine new (s.ctx c).lines
          let sum := cumulative sup ls
          if e.basketCap < sum then (s, .reply .limit ([2] ++ enc 4 sum ++ enc 4 e.basketCap))
          else
            (changeLines c ls s,
              .reply .ok (enc 1 l.number ++ enc 4 price ++ enc 4 (l.qty * (l.list - price)) ++ enc 2 bp
                ++ enc 4 sum ++ enc 4 e.basketCap))

/-- OVERRIDE (R108, R109). -/
def execOverride (r : Req) (s : State) : Out :=
  laneRequest 0x05 gateBasket 9 r (fun l => onCtx l fun c => onLine r.payload c (overrideBody r.payload c)) s

/-! ### CLEAR_OVERRIDE (R110) -/

/-- CLEAR_OVERRIDE on an ACTIVE line (R110). -/
def clearOverrideBody (c : CtxNo) (l : Line) (s : State) : State × Answer :=
  let sup := match l.override with | some o => o.supervisor | none => 0
  (changeLines c (replaceLine { l with override := none } (s.ctx c).lines) s,
    .reply .ok (enc 1 l.number ++ enc 3 sup))

/-- CLEAR_OVERRIDE (R110). -/
def execClearOverride (r : Req) (s : State) : Out :=
  laneRequest 0x06 gateBasket 1 r (fun l => onCtx l fun c => onLine r.payload c (clearOverrideBody c)) s

end Sys2Proof.Machine
end

