-- ==== Sys2Proof/Machine/Link.lean ====
section
/-! DEFINITION. The serial link and the queues (chapter 10): the receiver, sorting and storing of arrivals, host
HOLD records, the answers to frames no other block takes, the transmitter, and the timers of the flow holds. -/

namespace Sys2Proof.Machine

/-! ### Host HOLD records (R174) -/

/-- What a well-formed HOLD of a level and a time does at its arrival (R174). -/
def actHold (level time : Nat) (s : State) : State :=
  if time = 0 then { s with link := { s.link with hold := .none, holdTimer := none } }
  else
    { s with link := { s.link with
        hold := if level ≤ s.config.holdThreshold then .full else .bulk
        holdTimer := some (s.after time) } }

/-! ### Sorting and storing (R166, R167, R172) -/

/-- A frame that acts at its arrival and is not queued (R166). -/
def Frame.actsAtOnce (f : Frame) : Bool := f.kind == kindHold && holdWellFormed f.payload

/-- The queue a frame that does not act at its arrival is sorted to (R166). -/
def queueOf (f : Frame) : QueueId :=
  if !isKnownKind f.kind || f.kind == kindHold then .bulk
  else if (laneOf f.lane).isSome then .pool else .bulk

/-- The number of frames a queue holds (R167). -/
def capacity : QueueId → Nat
  | .pool => 24
  | .bulk => 8

/-- The watermark of a queue (R172). -/
def State.watermark (s : State) : QueueId → Nat
  | .pool => s.config.poolWatermark
  | .bulk => s.config.bulkWatermark

/-- The congestion test of a stored arrival (R172). -/
def testCongestion (q : QueueId) (s : State) : State :=
  let x := s.inbound q
  if !x.congested && s.watermark q ≤ x.frames.length then
    makeHold (queueScope q) s.config.holdTime (s.setInbound q { x with congested := true })
  else s

/-- The lane set an overrun adds: the frame's lane, or lane 0 for the bulk queue (R167, R185). -/
def overrunLanes (q : QueueId) (f : Frame) : LaneSet :=
  match q, laneOf f.lane with
  | .pool, some l => laneBit l
  | _, _ => 1

/-- An arrival at its queue (R167): stored with the congestion test, or discarded with INBOUND_OVERRUN. -/
def storeFrame (q : QueueId) (f : Frame) (s : State) : State :=
  let x := s.inbound q
  if x.frames.length < capacity q then
    testCongestion q (s.setInbound q { x with frames := x.frames ++ [f] })
  else raise .inboundOverrun (·.addLanes (overrunLanes q f)) s

/-- An arrival (R166). -/
def arrive (f : Frame) (s : State) : State :=
  if Frame.actsAtOnce f then actHold (field f.payload 0 1) (field f.payload 1 2) s
  else storeFrame (queueOf f) f s

/-- HOLD (R166, R174): the arrival of a frame of kind 0x40. -/
def execHold (r : Req) (s : State) : Out := whenLive (fun s => settleClaims (arrive (r.frame kindHold) s)) s

/-! ### The receiver (R164, R165) -/

/-- The frame the bytes after a SOF stand for, LEN first, and its CRC field (R163). -/
def frameOf (got : List Byte) : Frame × Nat :=
  let len := field got 0 1
  ({ kind := BitVec.ofNat 8 (field got 1 1), lane := BitVec.ofNat 8 (field got 2 1)
     tag := BitVec.ofNat 8 (field got 3 1), payload := (got.drop 4).take len },
    field got (4 + len) 2)

/-- The CRC field of a complete frame agrees with the bytes before it (R164). -/
def crcAgrees (got : List Byte) : Bool :=
  (crc16 (got.take (4 + field got 0 1))).toNat == field got (4 + field got 0 1) 2

/-- The receiver in HUNT with its gap timer stopped. -/
def toHunt (s : State) : State := { s with link := { s.link with rx := .hunt, gap := none } }

/-- The receiver in ASSEMBLE with the gap timer started (R164): it expires at the first reading of the time base
that is more than 20 ms after this one. -/
def toAssemble (got : List Byte) (s : State) : State :=
  { s with link := { s.link with rx := .assemble got, gap := some (s.after 21) } }

/-- The end of a complete frame (R164): an arrival, or a CRC fault. -/
def completeFrame (got : List Byte) (s : State) : State :=
  if crcAgrees got then arrive (frameOf got).1 (toHunt s) else linkFault .crc (toHunt s)

/-- A byte in ASSEMBLE (R164). -/
def gather (got : List Byte) (b : Byte) (s : State) : State :=
  if got.isEmpty && decide (240 < b.toNat) then linkFault .length (toHunt s)
  else if (got ++ [b]).length = field (got ++ [b]) 0 1 + 6 then completeFrame (got ++ [b]) s
  else toAssemble (got ++ [b]) s

/-- A byte received on RXD (R164). -/
def receiveByte (b : Byte) (s : State) : State :=
  match s.link.rx with
  | .hunt => if b = sof then toAssemble [] s else s
  | .assemble got => gather got b s

/-- BYTE_RECEIVED (R164). -/
def execByteReceived (b : Byte) (s : State) : Out := whenLive (fun s => settleClaims (receiveByte b s)) s

/-- FRAME_COMPLETE (R164): the byte is the last CRC byte of a frame. -/
def execFrameComplete (b : Byte) (s : State) : Out := whenLive (fun s => settleClaims (receiveByte b s)) s

/-- LENGTH_FAULT (R164): the byte is a LEN above 240. -/
def execLengthFault (b : Byte) (s : State) : Out := whenLive (fun s => settleClaims (receiveByte b s)) s

/-- GAP_FAULT (R164, R165). The gap timer runs in ASSEMBLE only. -/
def execGapFault (s : State) : Out :=
  whenLive (fun s => if s.timerDue s.link.gap then linkFault .gap (toHunt s) else s) s

/-! ### Frames the device-level request handler answers with kind 0xFE (R166) -/

/-- The outcome of R166 for a frame of unknown kind, of a lane above 8, or a malformed HOLD. -/
def unanswerableOutcome (f : Frame) : Option OutcomeCode :=
  if !isKnownKind f.kind then some .badKind
  else if 8 < f.lane.toNat then some .badLane
  else if f.kind == kindHold then some .badField
  else none

/-- The reply of kind 0xFE (R166, R189). -/
def unknownReply (f : Frame) (o : OutcomeCode) : Frame :=
  { kind := 0xFE, lane := 0, tag := f.tag, payload := [o.code, f.kind, f.lane] }

/-- UNKNOWN_KIND_ANSWER (R166). -/
def execUnknownKindAnswer (f : Frame) (s : State) : Out :=
  whenLive (fun s =>
    match unanswerableOutcome f with
    | some o =>
      match takeBulk f s with
      | some s' => settleClaims (placeReserved (unknownReply f o) s')
      | none => s
    | none => s) s

/-! ### The transmitter (R171, R173) -/

/-- The code of the level the device's own HOLD carries (R188). -/
def HoldScope.level : HoldScope → Byte
  | .full => 0
  | .bulk => 7

/-- A device HOLD record as a frame (R163, R187, R188; lane 0, assumption 18). -/
def holdFrame (h : DeviceHold) : Frame :=
  { kind := kindHold, lane := 0, tag := 0, payload := h.scope.level :: enc 2 h.time }

/-- The transmitter may begin a frame now: it is at a frame boundary, the line is not held quiet after a cut
frame, and no soft reset is due (R171, R182). -/
def State.boundary (s : State) : Bool :=
  s.link.tx.isNone && s.device.restart != .due &&
    match s.link.quietUntil with
    | some t => t ≤ s.now
    | none => true

/-- The queue the transmitter sends from next, with no device HOLD pending (R171, R174). -/
def State.nextQueue (s : State) : Option OutQueue :=
  let main := s.link.hold != .full && !s.mainQ.frames.isEmpty
  let notices := s.link.hold == .none && !s.notices.isEmpty
  if main && notices then some (if s.link.lastSent = some .main then .notices else .main)
  else if main then some .main
  else if notices then some .notices
  else none

/-- Transmission of a frame begins. -/
def beginFrame (t : Transmission) (s : State) : State :=
  { s with link := { s.link with tx := some t, quietUntil := none } }

/-- The transmission of the oldest frame of the main queue begins (R171). -/
def startMain (s : State) : State :=
  match s.mainQ.frames with
  | [] => s
  | f :: fs =>
    let s := beginFrame { source := .main, frame := f } { s with mainQ := { s.mainQ with frames := fs } }
    { s with link := { s.link with lastSent := some .main } }

/-- The transmission of the oldest notice begins: its contents are taken now (R170, R171). -/
def startNotice (s : State) : State :=
  match s.notices with
  | [] => s
  | c :: _ =>
    let s := beginFrame { source := .notice c, frame := conditionFrame c s } s
    { s with link := { s.link with lastSent := some .notices } }

/-- STARTED, the first frame of the main queue after a reset, has not been begun yet (R182). -/
def State.startedWaits (s : State) : Bool := s.link.lastSent.isNone

/-- The first frame after a reset: TXD stays high until STARTED begins, so a device HOLD waits for it, and STARTED
for the end of a FULL output hold (R174, R182). -/
def startFirst (s : State) : State := if s.link.hold = .full then s else startMain s

/-- The next frame once STARTED has been begun (R171). -/
def startLater (s : State) : State :=
  match s.link.deviceHolds with
  | h :: hs =>
    beginFrame { source := .deviceHold h, frame := holdFrame h }
      { s with link := { s.link with deviceHolds := hs } }
  | [] =>
    match s.nextQueue with
    | some .main => startMain s
    | some .notices => startNotice s
    | none => s

/-- What the transmitter does at a frame boundary (R171, R182). -/
def startNext (s : State) : State := if s.startedWaits then startFirst s else startLater s

/-- TRANSMIT_START (R171, R182). -/
def execTransmitStart (s : State) : Out := whenLive (fun s => if s.boundary then startNext s else s) s

/-- The transmitter becomes idle. -/
def endFrame (s : State) : State := { s with link := { s.link with tx := none } }

/-- A frame is the OK reply of RESTART (R181). -/
def isRestartReply (f : Frame) : Bool := f.kind == 0xB2 && f.payload == [OutcomeCode.ok.code]

/-- The soft reset becomes due when the RESTART reply has been transmitted (R181). -/
def noteRestart (f : Frame) (s : State) : State :=
  if s.device.restart = .replying ∧ isRestartReply f then
    { s with device := { s.device with restart := .due } }
  else s

/-- A device HOLD record has been sent (R173): the renew timer of a CONGESTED queue starts or restarts with RENEW set,
for every record that is not of time 0, one made under an earlier hold time among them (assumption 34). -/
def holdSent (h : DeviceHold) (s : State) : State :=
  let q := h.scope.queue
  if (s.inbound q).congested ∧ s.config.renew ∧ h.time ≠ 0 then
    s.setInbound q { s.inbound q with renew := some (s.after (s.config.holdTime - s.config.renewMargin)) }
  else s

/-- What the end of a frame does, by its source (R168, R170, R173). -/
def finishFrame (t : Transmission) (s : State) : State :=
  match t.source with
  | .main => settleClaims (noteRestart t.frame (endFrame s))
  | .notice c => { endFrame s with notices := s.notices.erase c }
  | .deviceHold h => holdSent h (endFrame s)

/-- TRANSMIT_END (R168, R170, R173). -/
def execTransmitEnd (s : State) : Out :=
  whenLive (fun s =>
    match s.link.tx with
    | some t => finishFrame t s
    | none => s) s

/-! ### Timers of the flow holds (R173, R174) -/

/-- What the expiry of a queue's renew timer does (R173). -/
def renewNow (q : QueueId) (s : State) : State :=
  let s' := s.setInbound q { s.inbound q with renew := none }
  if (s.inbound q).congested ∧ s.config.renew then makeHold (queueScope q) s.config.holdTime s' else s'

/-- RENEW_EXPIRY (R173). -/
def execRenewExpiry (q : QueueId) (s : State) : Out :=
  whenLive (fun s => if s.timerDue (s.inbound q).renew then renewNow q s else s) s

/-- OUTPUT_HOLD_EXPIRY (R174). -/
def execOutputHoldExpiry (s : State) : Out :=
  whenLive (fun s =>
    if s.timerDue s.link.holdTimer then
      { s with link := { s.link with hold := .none, holdTimer := none } }
    else s) s

end Sys2Proof.Machine
end

