-- ==== Sys2Proof/Machine/Resolve.lean ====
section
/-! DEFINITION. The price computation (chapter 4): from a snapshot, an offer section and a points schedule to the
quote record with its line and coupon results. -/

namespace Sys2Proof.Machine

/-! ### Order and choice among offers -/

/-- Lower rank first, and between equal ranks the lower offer id (R66, R70, R71, R73, R74, R79). -/
def Offer.before (a b : Offer) : Bool := a.rank < b.rank || (a.rank == b.rank && a.id < b.id)

/-- Inserts an offer at its place by `Offer.before`. -/
def insertByOrder (o : Offer) : List Offer → List Offer
  | [] => [o]
  | x :: xs => if o.before x then o :: x :: xs else x :: insertByOrder o xs

/-- Offers in increasing rank order, and between equal ranks in increasing id order. -/
def inOrder (os : List Offer) : List Offer := os.foldr insertByOrder []

/-- The offer of the greatest score; between equal scores the lower rank, then the lower id. -/
def pickBest (score : Offer → Nat) : List Offer → Option Offer
  | [] => none
  | o :: os =>
    match pickBest score os with
    | none => some o
    | some x => if score x < score o ∨ (score x = score o ∧ o.before x) then some o else some x

/-! ### Applicability (R62 to R64) -/

/-- An ACTIVE OFFER_KEY coupon of the snapshot keys an offer (R63). -/
def Snapshot.keyed (q : Snapshot) (id : Nat) : Bool :=
  q.coupons.any fun c => c.active && match c.kind with
    | .offerKey o => o == id
    | .storeValue _ _ => false

/-- An offer's gate is met (R63). -/
def Snapshot.gateMet (q : Snapshot) (o : Offer) : Bool :=
  match o.gate with
  | .none => true
  | .coupon => q.keyed o.id
  | .tierMin t => match q.account with
    | some a => t ≤ a.tier
    | none => false
  | .trade => match q.account with
    | some a => a.trade
    | none => false

/-- An offer of the pinned bank is applicable (R62). -/
def Snapshot.applicable (q : Snapshot) (o : Offer) : Bool :=
  o.firstDay ≤ q.day && q.day ≤ o.lastDay && q.gateMet o

/-- A department is in a target's department set. -/
def Target.hasDept (t : Target) (d : Nat) : Bool :=
  match t with
  | .depts s => s.getLsbD d
  | .item _ => false

/-- A line offer targets a line (R64). -/
def Offer.targets (o : Offer) (l : SnapLine) : Bool :=
  match o.target with
  | .item n => n == l.item
  | .depts s => s.getLsbD l.dept

/-- A line is eligible for line offers (R64). -/
def SnapLine.eligible (l : SnapLine) : Bool := !l.noOffers && l.override.isNone

/-- A line's gross amount A (R65). -/
def SnapLine.amount (l : SnapLine) : Nat := l.qty * l.list

/-- A line's override reduction (R65). -/
def SnapLine.reduction (l : SnapLine) : Nat :=
  match l.override with
  | some p => l.qty * (l.list - p)
  | none => 0

/-! ### Step 3: line offers (R66 to R72) -/

/-- An offer applied to a line: its id, the line's quantity and the saving as cut. -/
structure Use where
  offer : Nat
  qty : Nat
  saving : Nat
  deriving DecidableEq, Repr

/-- The units of an offer used so far in a resolution (R67). -/
def usedUnits (id : Nat) (us : List Use) : Nat := ((us.filter (·.offer == id)).map (·.qty)).sum

/-- The unit-limit test for a quantity (R67). -/
def Offer.withinLimit (o : Offer) (us : List Use) (qty : Nat) : Bool :=
  o.unitLimit == 0 || qty ≤ o.unitLimit - usedUnits o.id us

/-- The total quantity Q of the eligible lines of an item code (R66). -/
def itemQuantity (item : Nat) (ls : List SnapLine) : Nat :=
  ((ls.filter fun l => l.eligible && l.item == item).map (·.qty)).sum

/-- An applicable QTY_BREAK on an item code whose threshold is met (R66). -/
def Offer.breakFor (item qty : Nat) (o : Offer) : Bool :=
  o.kind == .qtyBreak && o.target == .item item && o.threshold ≤ qty

/-- The QTY_BREAK selected for an item code among the applicable offers (R66). -/
def selectedBreak (os : List Offer) (ls : List SnapLine) (item : Nat) : Option Offer :=
  pickBest (·.threshold) (os.filter (Offer.breakFor item (itemQuantity item ls)))

/-- The saving an offer gives a line on a base (R69). -/
def Offer.saving (o : Offer) (l : SnapLine) (base : Nat) : Nat :=
  match o.kind with
  | .qtyBreak => l.qty * (l.list - o.value)
  | .itemOff => min (l.qty * o.value) base
  | .deptPercent => base * o.value / 10000
  | _ => 0

/-- An ITEM_OFF or DEPT_PERCENT offer. -/
def Offer.isPlainLineOffer (o : Offer) : Bool := o.kind == .itemOff || o.kind == .deptPercent

/-- The exclusive candidates of an eligible line (R68). -/
def exclusiveCandidates (os : List Offer) (ls : List SnapLine) (us : List Use) (l : SnapLine) : List Offer :=
  os.filter fun o =>
    o.targets l && o.withinLimit us l.qty &&
      ((o.isPlainLineOffer && !o.stackable) ||
        (o.kind == .qtyBreak && (selectedBreak os ls l.item).map (·.id) == some o.id))

/-- The floor room of a base: what is above quantity times floor price (R70, R71). -/
def SnapLine.roomIn (l : SnapLine) (base : Nat) : Nat := base - l.qty * l.floor

/-- The exclusive offer applied to a line and its saving as cut; none when the saving is 0 (R70). -/
def exclusiveChoice (os : List Offer) (ls : List SnapLine) (us : List Use) (l : SnapLine) :
    Option (Offer × Nat) :=
  match pickBest (·.saving l l.amount) (exclusiveCandidates os ls us l) with
  | none => none
  | some o =>
    let cut := min (o.saving l l.amount) (l.roomIn l.amount)
    if cut = 0 then none else some (o, cut)

/-- The uses of the stackable offers on a line, in order (R71): `base` is A′, `left` the room still left. -/
def stack (l : SnapLine) (base : Nat) : Nat → List Use → List Offer → List Use
  | _, _, [] => []
  | left, us, o :: os =>
    let cut := min (o.saving l base) left
    if o.withinLimit us l.qty ∧ 0 < cut then
      let u : Use := { offer := o.id, qty := l.qty, saving := cut }
      u :: stack l base (left - cut) (us ++ [u]) os
    else stack l base left us os

/-- The stackable offers that target a line, in the order they are taken (R68, R71). -/
def stackables (os : List Offer) (l : SnapLine) : List Offer :=
  inOrder (os.filter fun o => o.isPlainLineOffer && o.stackable && o.targets l)

/-- The total saving of a list of uses. -/
def savings (us : List Use) : Nat := (us.map (·.saving)).sum

/-- A line priced: its result and the uses of offers on it. -/
structure PricedLine where
  result : LineResult
  uses : List Use
  deriving DecidableEq, Repr

/-- The pricing of an eligible line, given the uses on earlier lines (R70 to R72). -/
def priceEligible (os : List Offer) (ls : List SnapLine) (us : List Use) (l : SnapLine) : PricedLine :=
  let ex := exclusiveChoice os ls us l
  let first : List Use := match ex with
    | some (o, cut) => [{ offer := o.id, qty := l.qty, saving := cut }]
    | none => []
  let exclusive := match ex with | some (o, _) => o.id | none => 0
  let base := l.amount - savings first
  let stacked := stack l base (l.roomIn base) (us ++ first) (stackables os l)
  { result := { line := l.number, net := base - savings stacked, exclusive := exclusive,
                stackable := stacked.length }
    uses := first ++ stacked }

/-- The pricing of a line (R65, R72): an overridden line at its override price, a NO_OFFERS line at A. -/
def priceLine (os : List Offer) (ls : List SnapLine) (us : List Use) (l : SnapLine) : PricedLine :=
  match l.override with
  | some p => { result := { line := l.number, net := l.qty * p, exclusive := 0, stackable := 0 }, uses := [] }
  | none =>
    if l.noOffers then
      { result := { line := l.number, net := l.amount, exclusive := 0, stackable := 0 }, uses := [] }
    else priceEligible os ls us l

/-- The pricing of the lines in line-number order: each line sees the uses on the lines before it (R67). -/
def priceLines (os : List Offer) (all : List SnapLine) : List Use → List SnapLine → List PricedLine
  | _, [] => []
  | us, l :: ls =>
    let x := priceLine os all us l
    x :: priceLines os all (us ++ x.uses) ls

/-! ### Step 4: spend offers (R73, R74) -/

/-- The lines of a snapshot with their nets. -/
abbrev Nets := List (SnapLine × Nat)

/-- The sum of the nets of the lines that satisfy a condition. -/
def netSum (p : SnapLine → Bool) (ns : Nets) : Nat := ((ns.filter fun x => p x.1).map (·.2)).sum

/-- The eligible spend S of a spend offer (R73). -/
def Offer.spend (o : Offer) (ns : Nets) : Nat := netSum (fun l => !l.noOffers && o.target.hasDept l.dept) ns

/-- A spend offer qualifies (R73). -/
def Offer.qualifies (o : Offer) (ns : Nets) : Bool := o.kind == .spendOff && o.threshold ≤ o.spend ns

/-- The spend offers that are taken, in order (R73, R74): the best exclusive one and every stackable one. -/
def spendOffers (os : List Offer) (ns : Nets) : List Offer :=
  let qualifying := os.filter (Offer.qualifies · ns)
  let best := pickBest (·.value) (qualifying.filter (!·.stackable))
  inOrder (best.toList ++ qualifying.filter (·.stackable))

/-- The spend offers applied, each with its saving as cut to the sum of nets still left (R74). -/
def applySpends : Nat → List Offer → List Use
  | _, [] => []
  | left, o :: os =>
    let cut := min o.value left
    if cut = 0 then applySpends left os
    else { offer := o.id, qty := 0, saving := cut } :: applySpends (left - cut) os

/-! ### Step 5: store-value coupons (R75) -/

/-- The amount a coupon applies to a payable: 0 for one that is not a store-value coupon, whose minimum spend
is not met, or when nothing is left (R75). -/
def SnapCoupon.amountOn (c : SnapCoupon) (payable : Nat) : Nat :=
  match c.kind with
  | .offerKey _ => 0
  | .storeValue value minSpend => if c.active && minSpend ≤ payable then min value payable else 0

/-- The amounts the coupons apply in presentation order (R75). -/
def couponAmounts : Nat → List SnapCoupon → List Nat
  | _, [] => []
  | payable, c :: cs => c.amountOn payable :: couponAmounts (payable - c.amountOn payable) cs

/-! ### Step 7: points earned (R78, R79) -/

/-- A line earns points: its department is not excluded (R78). -/
def Schedule.counts (x : Schedule) (l : SnapLine) : Bool := !x.excluded.getLsbD l.dept

/-- The earn rate of a tier (R46). -/
def Schedule.earnRate (x : Schedule) (tier : Nat) : Nat :=
  if tier = 0 then x.earn0 else if tier = 1 then x.earn1 else if tier = 2 then x.earn2 else x.earn3

/-- The boost used on a line (R79). -/
def boostOf (os : List Offer) (l : SnapLine) : Option Offer :=
  pickBest (·.value) (os.filter fun o => o.kind == .pointsBoost && o.target.hasDept l.dept)

/-- The bonus of a line and the boost used, when the bonus is above 0 (R79). -/
def lineBonus (os : List Offer) (x : Schedule) (rate : Nat) (n : SnapLine × Nat) : Option (Nat × Nat) :=
  if x.counts n.1 && !n.1.noOffers then
    match boostOf os n.1 with
    | some o =>
      let bonus := n.2 * rate * (o.value - 1) / 100
      if bonus = 0 then none else some (o.id, bonus)
    | none => none
  else none

/-! ### The quote (R76, R77, R80, R81) -/

/-- A schedule of zero rates, for a bank without one (assumption 22). -/
def Schedule.zero : Schedule :=
  { earn0 := 0, earn1 := 0, earn2 := 0, earn3 := 0, redemptionRate := 0, minimumRedemption := 0
    excluded := 0 }

/-- The figures of the seven steps. -/
structure Figures where
  gross : Nat
  reduction : Nat
  results : List LineResult
  lineUses : List Use
  spendUses : List Use
  amounts : List Nat
  redemption : Nat
  pointsUsed : Nat
  payable : Nat
  /-- the lines with a bonus: boost used and bonus -/
  bonuses : List (Nat × Nat)
  earned : Nat
  deriving DecidableEq, Repr

/-- The rate and the bonuses need an account (R78). -/
def Snapshot.rate (q : Snapshot) (x : Schedule) : Nat :=
  match q.account with
  | some a => x.earnRate a.tier
  | none => 0

/-- The points the snapshot may redeem (R77): none without an account. -/
def Snapshot.redeemable (q : Snapshot) : Nat := if q.account.isSome then q.reserved else 0

/-- The redemption applied to a payable (R77). -/
def redemptionOn (r ppu payable : Nat) : Nat := min (r * 100 / ppu) payable

/-- The points used for a redemption, rounded up (R77). -/
def pointsFor (redemption ppu : Nat) : Nat := (redemption * ppu + 99) / 100

/-- The lines of a snapshot priced, with the applicable offers (R65 to R72). -/
def pricedLines (os : List Offer) (q : Snapshot) : List PricedLine := priceLines os q.lines [] q.lines

/-- The seven steps over the applicable offers (R83). -/
def figures (os : List Offer) (x : Schedule) (q : Snapshot) : Figures :=
  let priced := pricedLines os q
  let ns : Nets := q.lines.zip (priced.map (·.result.net))
  let nets := netSum (fun _ => true) ns
  let spendUses := applySpends nets (spendOffers os ns)
  let p4 := nets - savings spendUses
  let amounts := couponAmounts p4 q.coupons
  let p5 := p4 - amounts.sum
  let redemption := redemptionOn q.redeemable x.redemptionRate p5
  let rate := q.rate x
  let base := netSum x.counts ns - savings spendUses - amounts.sum - redemption
  let bonuses := ns.filterMap (lineBonus os x rate)
  { gross := (q.lines.map SnapLine.amount).sum
    reduction := (q.lines.map SnapLine.reduction).sum
    results := priced.map (·.result)
    lineUses := priced.flatMap (·.uses)
    spendUses := spendUses
    amounts := amounts
    redemption := redemption
    pointsUsed := pointsFor redemption x.redemptionRate
    payable := p5 - redemption
    bonuses := bonuses
    earned := min (base * rate / 100 + (bonuses.map (·.2)).sum) maxPoints }

/-- The applied-offer entry of an offer, if it applied (R81). -/
def appliedEntry (f : Figures) (o : Offer) : Option Applied :=
  match o.kind with
  | .spendOff =>
    match f.spendUses.find? (·.offer == o.id) with
    | some u => some { offer := o.id, lines := 0, saving := u.saving }
    | none => none
  | .pointsBoost =>
    let n := (f.bonuses.filter (·.1 == o.id)).length
    if n = 0 then none else some { offer := o.id, lines := n, saving := 0 }
  | _ =>
    let us := f.lineUses.filter (·.offer == o.id)
    if us.isEmpty then none else some { offer := o.id, lines := us.length, saving := savings us }

/-- The result of a coupon, with the amount it applied in step 5 (R76). -/
def couponResult (all : List Applied) (c : SnapCoupon) (amount : Nat) : CouponResult :=
  match c.kind with
  | .offerKey id =>
    if c.active then
      match all.find? (·.offer == id) with
      | some e => .applied e.saving
      | none => .notApplied
    else .dormant
  | .storeValue _ _ => if amount = 0 then .notApplied else .applied amount

/-- The quote of a snapshot against an offer section, in increasing offer id order, and a schedule (R61,
R80 to R83). -/
def resolve (offers : List Offer) (x : Schedule) (q : Snapshot) : Quote :=
  let os := offers.filter q.applicable
  let f := figures os x q
  let all := os.filterMap (appliedEntry f)
  { incarnation := q.incarnation
    revision := q.revision
    generation := q.generation
    gross := f.gross
    overrideReduction := f.reduction
    lineSavings := savings f.lineUses
    basketSaving := savings f.spendUses
    couponValue := f.amounts.sum
    redemption := f.redemption
    pointsUsed := f.pointsUsed
    payable := f.payable
    pointsEarned := f.earned
    applied := all.take 32
    notListed := all.length - 32
    lines := f.results
    coupons := (q.coupons.zip f.amounts).map fun y => couponResult all y.1 y.2 }

end Sys2Proof.Machine
end

