-- ==== Sys2Proof/Machine/Scheduler.lean ====
section
/-! DEFINITION. The scheduler and the delivery of quotes (chapter 8): RESOLVE_GRANT, RESOLUTION_COMPLETE and
OWED_SUBTOTAL. -/

namespace Sys2Proof.Machine

/-! ### The grant (R60, R137 to R139) -/

/-- The lanes in the normal order: group by group in the configured group order, and within a group in
increasing number (R138). -/
def State.normalOrder (s : State) : List LaneNo :=
  s.config.groupOrder.flatMap fun g => allLanes.filter fun l => s.laneGroup l == g

/-- The waiting lanes in the normal order (R136, R138). -/
def State.waitingLanes (s : State) : List LaneNo := s.normalOrder.filter s.waiting

/-- Step 1 of R138: the priority lane, unless the previous grant went to it and the aged list is not empty. -/
def State.priorityChoice (s : State) : Option LaneNo :=
  match s.config.priority with
  | some l =>
    if s.waiting l && !(s.sched.previous == .priority && !s.sched.aged.isEmpty) then some l else none
  | none => none

/-- The lane the scheduler grants (R138). -/
def State.chosenLane (s : State) : Option LaneNo :=
  match s.priorityChoice with
  | some l => some l
  | none =>
    match s.sched.aged.find? s.waiting with
    | some l => some l
    | none => s.waitingLanes.head?

/-- A line as the snapshot takes it (R36, R60). -/
def Line.snap (l : Line) : SnapLine :=
  { number := l.number, item := l.item, dept := l.dept, noOffers := l.noOffers, qty := l.qty, list := l.list
    floor := l.floor, override := l.override.map (·.price) }

/-- The snapshot of an attached context (R36, R60). -/
def snapshotOf (c : CtxNo) (a : Attachment) (s : State) : Snapshot :=
  let x := s.ctx c
  { ctx := c
    incarnation := x.incarnation
    revision := x.revision
    lines := (x.lines.filter (!·.voided)).map Line.snap
    coupons := x.coupons.map fun k => { kind := k.kind, active := k.active }
    account := x.account.map fun r => { tier := r.tier, trade := r.trade }
    reserved := s.reserved c
    bank := a.bank
    generation := a.generation
    day := a.day }

/-- A lane passed over by a grant: its count rises, to at most 4 (R139). -/
def passOver (l : LaneNo) (s : State) : State :=
  s.setLane l { s.lane l with passOver := min 4 ((s.lane l).passOver + 1) }

/-- The lanes whose count reaches 4 at a grant that passes them over, in the normal order (R139). -/
def newlyAged (s : State) (others : List LaneNo) : List LaneNo :=
  others.filter fun l => (s.lane l).passOver == 3

/-- The grant to a lane (R137): the pass-over counts and the aged list, the context, the flight and the previous
grant. -/
def grantTo (l : LaneNo) (c : CtxNo) (a : Attachment) (s : State) : State :=
  let others := s.waitingLanes.filter (· != l)
  let aged := s.sched.aged.filter (· != l) ++ newlyAged s others
  let s := others.foldl (fun s l => passOver l s) s
  let s := s.setLane l { s.lane l with passOver := 0 }
  let snap := snapshotOf c a s
  let s := s.setCtx c { s.ctx c with wanted := false, inFlight := true }
  { s with sched := {
      flight := some { lane := l, ctx := c, snapshot := snap }
      previous := if s.config.priority = some l then .priority else .other
      aged := aged } }

/-- The lane, the context and the attachment a grant goes to now: the unit is IDLE and a lane is chosen (R137,
R138). A waiting lane always has an ATTACHED context (R12); were there none no grant would be made
(assumption 22). -/
def State.grantee (s : State) : Option (LaneNo × CtxNo × Attachment) :=
  if s.sched.flight.isSome then none
  else match s.chosenLane with
    | none => none
    | some l =>
      match (s.lane l).ctx with
      | none => none
      | some c => (s.ctx c).attachment.map fun a => (l, c, a)

/-- RESOLVE_GRANT (R137). -/
def execResolveGrant (s : State) : Out :=
  whenLive (fun s =>
    match s.grantee with
    | some (l, c, a) => grantTo l c a s
    | none => s) s

/-! ### SUBTOTAL notices (R143, R144) -/

/-- The SUBTOTAL notice of a stored quote (R143, R189). -/
def subtotalFrame (l : LaneNo) (c : CtxNo) (q : Quote) : Frame :=
  { kind := 0x60, lane := laneByte l, tag := 0, payload := ctxByte c :: q.summary }

/-- A frame is a SUBTOTAL for a lane with a context and incarnation (R143). -/
def isSubtotalFor (l : LaneNo) (c : CtxNo) (inc : Counter) (f : Frame) : Bool :=
  f.kind == 0x60 && f.lane == laneByte l && f.payload.take 3 == ctxByte c :: enc 2 inc.toNat

/-- Replaces the contents of the SUBTOTAL of the same lane, context and incarnation, in its place (R143). -/
def replaceSubtotal (l : LaneNo) (c : CtxNo) (inc : Counter) (f : Frame) (s : State) : State :=
  { s with mainQ := { s.mainQ with
      frames := s.mainQ.frames.map fun g => if isSubtotalFor l c inc g then f else g } }

/-- Sets or clears a lane's subtotal owed flag. -/
def setOwed (l : LaneNo) (b : Bool) (s : State) : State := s.setLane l { s.lane l with subtotalOwed := b }

/-- The delivery of a SUBTOTAL at a matching completion (R143, R144). -/
def deliverSubtotal (l : LaneNo) (c : CtxNo) (q : Quote) (s : State) : State :=
  let f := subtotalFrame l c q
  if s.mainQ.frames.any (isSubtotalFor l c q.incarnation) then replaceSubtotal l c q.incarnation f s
  else if 0 < s.freeSlots then setOwed l false (placeFrame f s)
  else setOwed l true s

/-! ### Completion (R140, R141) -/

/-- The QUOTE reply to the TOTAL that waits on a lane (R142, R189). -/
def quoteReply (l : LaneNo) (c : CtxNo) (q : Quote) (s : State) : Frame :=
  { kind := 0x8E, lane := laneByte l, tag := (s.lane l).quoteTag
    payload := OutcomeCode.ok.code :: (enc 2 (s.ctx c).revision.toNat ++ quoteFields c q) }

/-- The QUOTE delivered to a lane in QUOTING (R9, R141, R158). -/
def deliverQuote (l : LaneNo) (c : CtxNo) (q : Quote) (s : State) : State :=
  let s := placeReserved (quoteReply l c q s) s
  startIdle 0 l (s.setLane l { s.lane l with state := .totalled, subtotalOwed := false })

/-- The delivery of a stored quote by the lane's state and the context's tracking mode (R141). -/
def deliver (a : Attachment) (c : CtxNo) (q : Quote) (s : State) : State :=
  if (s.lane a.lane).state = .quoting then deliverQuote a.lane c q s
  else match a.tracking with
    | .tracking => deliverSubtotal a.lane c q s
    | .onDemand => s

/-- The points schedule the resolution uses: that of the bank the snapshot names (R60). -/
def State.scheduleOf (s : State) (b : BankNo) : Schedule := (s.bank b).schedule.getD .zero

/-- The quote of a snapshot against the bank it names (R60, R61). -/
def State.quoteOf (s : State) (q : Snapshot) : Quote := resolve (s.bank q.bank).offers (s.scheduleOf q.bank) q

/-- The result of a completion (R140, R141), once the flight has ended. -/
def dealWith (q : Snapshot) (s : State) : State :=
  let x := s.ctx q.ctx
  if x.incarnation ≠ q.incarnation then s
  else match x.place with
    | .free => s
    | .parked _ => s
    | .attached a =>
      if x.revision ≠ q.revision then
        if (s.lane a.lane).state = .quoting ∨ a.tracking = .tracking then
          s.setCtx q.ctx { x with wanted := true }
        else s
      else
        let quote := s.quoteOf q
        deliver a q.ctx quote (s.setCtx q.ctx { x with quote := some quote, wanted := false })

/-- The end of the flight (R140): the unit becomes IDLE and the context's resolve in flight field no. -/
def endFlight (f : Flight) (s : State) : State :=
  let s := { s with sched := { s.sched with flight := none } }
  s.setCtx f.ctx { s.ctx f.ctx with inFlight := false }

/-- RESOLUTION_COMPLETE (R140). -/
def execResolutionComplete (s : State) : Out :=
  whenLive (fun s =>
    match s.sched.flight with
    | some f => settleClaims (dealWith f.snapshot (endFlight f s))
    | none => s) s

/-! ### OWED_SUBTOTAL (R144, R169) -/

/-- The SUBTOTAL a lane owes, built from the stored quote of its context (R144). -/
def State.owedFrame (s : State) (l : LaneNo) : Option Frame :=
  if (s.lane l).subtotalOwed then
    match (s.lane l).ctx with
    | some c => (s.ctx c).quote.map (subtotalFrame l c)
    | none => none
  else none

/-- OWED_SUBTOTAL (R144, R169). -/
def execOwedSubtotal (l : LaneNo) (s : State) : Out :=
  whenLive (fun s =>
    match s.owedFrame l with
    | some f =>
      if s.slotFor (.owed l) then settleClaims (setOwed l false (placeFrame f (useSlot (.owed l) s))) else s
    | none => s) s

end Sys2Proof.Machine
end

