-- ==== Sys2Proof/Machine/Settlement.lean ====
section
/-! DEFINITION. Settlement, parking and the idle monitor (chapter 9): FINALIZE, SETTLEMENT_FRAME, SETTLE_END, PARK,
RECALL and the expiries of the park lifetime and of the idle timer. -/

namespace Sys2Proof.Machine

/-! ### The frames of a settlement stream (R148, R149, R189) -/

/-- The number of SETTLE_LINES frames of a line list (R148). -/
def lineFramesOf (ls : List Line) : Nat := max 1 ((ls.length + 11) / 12)

/-- The payload of SETTLE_HEAD (R149, R189). `account` and `balance` are 0 and 0xFFFFFFFF without an account. -/
def headPayload (c : CtxNo) (x : Context) (day account balance : Nat) (q : Quote) : List Byte :=
  [1, OutcomeCode.ok.code, ctxByte c] ++ enc 2 day ++ enc 5 account ++ enc 4 balance
    ++ enc 1 x.lines.length ++ enc 1 x.coupons.length ++ enc 1 (lineFramesOf x.lines) ++ q.summary

/-- The line result of a line by its number; zeros for a line without one (R72, R82). -/
def Quote.resultOf (q : Quote) (n : Nat) : LineResult :=
  match q.lines.find? (·.line == n) with
  | some r => r
  | none => { line := n, net := 0, exclusive := 0, stackable := 0 }

/-- An entry of SETTLE_LINES (R149, R189). -/
def settleLine (q : Quote) (l : Line) : List Byte :=
  let r := q.resultOf l.number
  let sup := match l.override with | some o => o.supervisor | none => 0
  let reason := match l.override with | some o => o.reason | none => 0
  enc 1 l.number ++ [l.flags] ++ enc 2 l.qty ++ enc 4 l.unitPrice ++ enc 4 r.net ++ enc 2 r.exclusive
    ++ enc 1 r.stackable ++ enc 3 sup ++ enc 1 reason

/-- The payload of the SETTLE_LINES frame with stream frame number `n` (R149). -/
def linesPayload (q : Quote) (ls : List Line) (n : Nat) : List Byte :=
  let part := (ls.drop (12 * (n - 2))).take 12
  enc 1 n ++ enc 1 part.length ++ part.flatMap (settleLine q)

/-- The payload of SETTLE_OFFERS (R149). -/
def offersPayload (q : Quote) (n : Nat) : List Byte :=
  enc 1 n ++ enc 1 q.applied.length ++ enc 2 q.notListed
    ++ q.applied.flatMap fun a => enc 2 a.offer ++ enc 1 a.lines ++ enc 4 a.saving

/-- The code of a coupon result (R185) and the amount reported with it (R189). -/
def CouponResult.fields : CouponResult → List Byte
  | .applied amount => [1] ++ enc 4 amount
  | .notApplied => [2] ++ enc 4 0
  | .dormant => [3] ++ enc 4 0

/-- The entries of SETTLE_COUPONS from position `n` on (R149). -/
def settleCoupons : Nat → List (Coupon × CouponResult) → List Byte
  | _, [] => []
  | n, (k, r) :: rest =>
    enc 1 n ++ [k.kind.code] ++ enc 6 k.serial ++ r.fields ++ settleCoupons (n + 1) rest

/-- The payload of SETTLE_COUPONS (R149). -/
def couponsPayload (q : Quote) (cs : List Coupon) (n : Nat) : List Byte :=
  enc 1 n ++ enc 1 cs.length ++ settleCoupons 1 (cs.zip q.coupons)

/-- The payload of SETTLE_END (R149, R190): the frames before it and the CRC-32 over their payloads. -/
def endPayload (st : Stream) : List Byte :=
  enc 1 (st.placed + 1) ++ enc 1 st.placed ++ enc 4 (crc32Final st.crc).toNat

/-- The frames of a stream before SETTLE_END (R149). -/
def Stream.beforeEnd (st : Stream) : Nat := st.lineFrames + 3

/-- The next frame of a stream is SETTLE_END. -/
def Stream.atEnd (st : Stream) : Bool := st.placed == st.beforeEnd

/-- The kind and payload of the next frame of a stream that is not at its end, by its frame number (R149). -/
def Stream.nextFrame (st : Stream) (x : Context) (q : Quote) : Byte × List Byte :=
  let n := st.placed + 1
  if n ≤ st.lineFrames + 1 then (0x64, linesPayload q x.lines n)
  else if n = st.lineFrames + 2 then (0x65, offersPayload q n)
  else (0x66, couponsPayload q x.coupons n)

/-- A settlement frame carries the lane and the tag of the FINALIZE (R149). -/
def settleFrameOf (l : LaneNo) (st : Stream) (k : Byte) (payload : List Byte) : Frame :=
  { kind := k, lane := laneByte l, tag := st.tag, payload := payload }

/-- A stream after a frame with the given payload is placed (R148, R190). -/
def Stream.advanced (st : Stream) (payload : List Byte) : Stream :=
  { st with placed := st.placed + 1, crc := crc32Fold st.crc payload }

/-! ### FINALIZE (R99, R130, R147, R148) -/

/-- The conversion at settlement (R130): the balance falls by the points used, and the reservation and the
reference go. -/
def convertPoints (c : CtxNo) (used : Nat) (s : State) : State :=
  match (s.ctx c).account with
  | none => s
  | some a =>
    let s := changeAccount a.id (fun e => { e with balance := e.balance - used }) s
    let s := dropReference a.id (removeReservation c s)
    s.setCtx c { s.ctx c with account := none, settledAccount := some a.id }

/-- The balance after the conversion that SETTLE_HEAD carries (R149, R189): 0xFFFFFFFF without an account. -/
def balanceAfter (s : State) (c : CtxNo) (used : Nat) : Nat :=
  match (s.ctx c).account with
  | none => 0xFFFFFFFF
  | some a =>
    match s.account a.id with
    | some e => e.balance - used
    | none => 0

/-- The store day of an attached context. -/
def Context.day (x : Context) : Nat :=
  match x.attachment with
  | some a => a.day
  | none => 0

/-- The start of a stream: its record with one frame placed, and SETTLE_HEAD in the reserved slot (R148,
R150). -/
def startStream (tag : Byte) (l : LaneNo) (c : CtxNo) (head : List Byte) (lineFrames : Nat) (s : State) :
    State :=
  let st : Stream :=
    { ctx := c, tag := tag, lineFrames := lineFrames, placed := 1, crc := crc32Fold crc32Init head }
  placeReserved (settleFrameOf l st 0x63 head) (s.setStream l (some st))

/-- What FINALIZE does at its take, with the context's current quote (R147). -/
def settle (tag : Byte) (l : LaneNo) (c : CtxNo) (q : Quote) (s : State) : State :=
  let x := s.ctx c
  let head := headPayload c x x.day x.accountId (balanceAfter s c q.pointsUsed) q
  let s := convertPoints c q.pointsUsed (spendClaimsOf c s)
  let s := stopIdle l (s.setLane l { s.lane l with state := .settling, subtotalOwed := false })
  startStream tag l c head (lineFramesOf x.lines) s

/-- FINALIZE on the attached context of a lane in TOTALLED (R147). The quote is always there (R82); were there
none the request would be answered STALE_QUOTE (assumption 22). -/
def finalizeBody (tag : Byte) (l : LaneNo) (c : CtxNo) (s : State) : State × Answer :=
  match (s.ctx c).quote with
  | some q => (settle tag l c q s, .later)
  | none => (s, .reply .staleQuote [])

/-- FINALIZE (R147). -/
def execFinalize (r : Req) (s : State) : Out :=
  laneRequest 0x0F gateFinalize 0 r (fun l => onCtx l (finalizeBody r.tag l)) s

/-! ### SETTLEMENT_FRAME and SETTLE_END (R150, R151) -/

/-- The placement of the next frame of a lane's stream before its SETTLE_END (R150). -/
def placeSettleFrame (l : LaneNo) (st : Stream) (q : Quote) (s : State) : State :=
  let f := st.nextFrame (s.ctx st.ctx) q
  let s := placeFrame (settleFrameOf l st f.1 f.2) (useSlot (.stream l) s)
  s.setStream l (some (st.advanced f.2))

/-- The stream and quote of a lane whose next frame is not SETTLE_END. -/
def State.openStream (s : State) (l : LaneNo) : Option (Stream × Quote) :=
  match s.stream l with
  | some st => if st.atEnd then none else (s.ctx st.ctx).quote.map fun q => (st, q)
  | none => none

/-- SETTLEMENT_FRAME (R150). -/
def execSettlementFrame (l : LaneNo) (s : State) : Out :=
  whenLive (fun s =>
    match s.openStream l with
    | some (st, q) => if s.slotFor (.stream l) then settleClaims (placeSettleFrame l st q s) else s
    | none => s) s

/-- The placement of SETTLE_END and the release of the basket (R151). -/
def endStream (l : LaneNo) (st : Stream) (s : State) : State :=
  let s := placeFrame (settleFrameOf l st 0x67 (endPayload st)) (useSlot (.stream l) s)
  clearLane l (freeCtx st.ctx ((releasePinOf st.ctx s).setStream l none))

/-- The stream of a lane whose next frame is SETTLE_END. -/
def State.endingStream (s : State) (l : LaneNo) : Option Stream :=
  match s.stream l with
  | some st => if st.atEnd then some st else none
  | none => none

/-- SETTLE_END (R151). -/
def execSettleEnd (l : LaneNo) (s : State) : Out :=
  whenLive (fun s =>
    match s.endingStream l with
    | some st => if s.slotFor (.stream l) then settleClaims (endStream l st s) else s
    | none => s) s

/-! ### PARK (R153, R154) -/

/-- PARK on the attached context (R154). -/
def parkBody (l : LaneNo) (c : CtxNo) (s : State) : State × Answer :=
  let p := parkBasket l c s
  let x := p.1.ctx c
  (p.1, .reply .ok (enc 1 p.2.1 ++ [ctxByte c] ++ enc 2 x.incarnation.toNat ++ enc 2 x.revision.toNat
    ++ enc 4 p.2.2))

/-- PARK (R154). -/
def execPark (r : Req) (s : State) : Out :=
  laneRequest 0x11 gateBasket 0 r (fun l => onCtx l (parkBody l)) s

/-! ### RECALL (R98, R156, R157) -/

/-- The status of a coupon against a bank and a store day (R87). -/
def Coupon.statusIn (k : Coupon) (x : Bank) (day : Nat) : Bool :=
  match k.kind with
  | .storeValue _ _ => true
  | .offerKey id =>
    match x.offer id with
    | some o => o.inWindow day
    | none => false

/-- A coupon with its status set again at a recall (R98). -/
def Coupon.recalled (k : Coupon) (x : Bank) (day : Nat) : Coupon := { k with active := k.statusIn x day }

/-- The number of coupons a recall makes DORMANT, or with `b` true ACTIVE again (R98). -/
def statusChanges (b : Bool) (x : Bank) (day : Nat) (cs : List Coupon) : Nat :=
  (cs.filter fun k => k.active != b && k.statusIn x day == b).length

/-- The parked context a ticket names (R153). -/
def State.parkedUnder (s : State) (ticket : Nat) : Option CtxNo :=
  (s.parks.list.find? (·.ticket == ticket)).map (·.ctx)

/-- An entry leaves the park list (R155, R156). -/
def unlist (ticket : Nat) (s : State) : State :=
  { s with parks := { s.parks with list := s.parks.list.filter (·.ticket != ticket) } }

/-- The recall of a parked context onto a lane with bank `b` CURRENT (R156, R157). -/
def recallTo (l : LaneNo) (c : CtxNo) (ticket : Nat) (b : BankNo) (s : State) : State × Answer :=
  let day := s.device.day
  let x := s.ctx c
  let a : Attachment :=
    { lane := l, tracking := (s.lane l).tracking, bank := b, generation := (s.bank b).generation, day := day }
  let dormant := statusChanges false (s.bank b) day x.coupons
  let active := statusChanges true (s.bank b) day x.coupons
  let s := pinBank b ((unlist ticket s).setCtx c
    { x with place := .attached a, coupons := x.coupons.map (·.recalled (s.bank b) day) })
  let s := s.setLane l { s.lane l with state := .opened, ctx := some c }
  let s := startIdle 0 l (bumpRevision c s)
  (s, .reply .ok ([ctxByte c] ++ enc 2 (s.ctx c).incarnation.toNat ++ enc 2 (s.ctx c).revision.toNat
    ++ enc 2 a.generation ++ enc 2 day ++ [a.tracking.code] ++ enc 1 x.lines.length ++ enc 1 x.coupons.length
    ++ enc 1 dormant ++ enc 1 active ++ enc 5 x.accountId))

/-- RECALL after the lane is IDLE (R156). A SERVING device always has a CURRENT bank (R180); were there none
the request would be answered NOT_READY (assumption 22). -/
def recallBody (p : List Byte) (l : LaneNo) (s : State) : State × Answer :=
  let ticket := field p 0 1
  if s.device.serving then
    if ticket = 0 then (s, badField 0 0)
    else match s.parkedUnder ticket with
      | none => (s, .reply .unknownTicket [])
      | some c =>
        match s.currentBank with
        | some b => recallTo l c ticket b s
        | none => (s, .reply .notReady [])
  else (s, .reply .notReady [])

/-- RECALL (R156). -/
def execRecall (r : Req) (s : State) : Out := laneRequest 0x12 gateIdle 1 r (recallBody r.payload) s

/-! ### Park expiry (R155) -/

/-- The parking of a context whose park lifetime has run out. -/
def State.expiredParking (s : State) (c : CtxNo) : Option Parking :=
  match (s.ctx c).place with
  | .parked p => if s.timerDue (some p.expires) then some p else none
  | _ => none

/-- What the expiry of a parked basket does (R155). -/
def expireParked (c : CtxNo) (ticket : Nat) (s : State) : State :=
  let s := freeCtx c (unlist ticket (dropReferenceOf c (removeClaimsOf c s)))
  raise .parkExpired (fun d => { d with ticket := ticket }) s

/-- PARK_EXPIRY (R155). -/
def execParkExpiry (c : CtxNo) (s : State) : Out :=
  whenLive (fun s =>
    match s.expiredParking c with
    | some p => expireParked c p.ticket s
    | none => s) s

/-! ### The idle monitor (R159, R160) -/

/-- A lane's idle timer is due at a stage. -/
def State.idleDue (s : State) (l : LaneNo) (stage : Nat) : Bool :=
  (s.lane l).idleStage == stage && s.timerDue (s.lane l).idleTimer

/-- What the expiry at stage 0 does (R159). -/
def warnIdle (l : LaneNo) (s : State) : State := raise .laneIdle (·.addLanes (laneBit l)) (startIdle 1 l s)

/-- IDLE_WARNING (R159). -/
def execIdleWarning (l : LaneNo) (s : State) : Out :=
  whenLive (fun s => if s.idleDue l 0 then warnIdle l s else s) s

/-- What the expiry at stage 1 does (R160). Where the park also ends a drain, the notice of BANK_DRAINED is placed
before that of LANE_IDLE (assumption 31). -/
def autoPark (l : LaneNo) (c : CtxNo) (s : State) : State :=
  let p := parkBasket l c s
  raise .laneIdle (fun d => { d.addLanes (laneBit l) with ticket := p.2.1 }) p.1

/-- AUTO_PARK (R160). The idle timer runs on a lane with a basket only (R158); without one nothing happens
(assumption 22). -/
def execAutoPark (l : LaneNo) (s : State) : Out :=
  whenLive (fun s =>
    if s.idleDue l 1 then
      match (s.lane l).ctx with
      | some c => settleClaims (autoPark l c s)
      | none => s
    else s) s

end Sys2Proof.Machine
end

