-- ==== Sys2Proof/Machine/Dispatch.lean ====
section
/-! DEFINITION. The meaning of every command: one arm per constructor of `Instr`. -/

namespace Sys2Proof.Machine

def exec (i : Instr) (s : State) : Host.Outcome State Fault Refusal :=
  match i with
  | .openBasket r => Sys2Proof.Machine.execOpenBasket r s
  | .addLine r => Sys2Proof.Machine.execAddLine r s
  | .setQty r => Sys2Proof.Machine.execSetQty r s
  | .voidLine r => Sys2Proof.Machine.execVoidLine r s
  | .override r => Sys2Proof.Machine.execOverride r s
  | .clearOverride r => Sys2Proof.Machine.execClearOverride r s
  | .presentCoupon r => Sys2Proof.Machine.execPresentCoupon r s
  | .withdrawCoupon r => Sys2Proof.Machine.execWithdrawCoupon r s
  | .attachAccount r => Sys2Proof.Machine.execAttachAccount r s
  | .detachAccount r => Sys2Proof.Machine.execDetachAccount r s
  | .redeem r => Sys2Proof.Machine.execRedeem r s
  | .cancelRedeem r => Sys2Proof.Machine.execCancelRedeem r s
  | .setTracking r => Sys2Proof.Machine.execSetTracking r s
  | .total r => Sys2Proof.Machine.execTotal r s
  | .finalize r => Sys2Proof.Machine.execFinalize r s
  | .voidBasket r => Sys2Proof.Machine.execVoidBasket r s
  | .park r => Sys2Proof.Machine.execPark r s
  | .recallBasket r => Sys2Proof.Machine.execRecall r s
  | .queryBasket r => Sys2Proof.Machine.execQueryBasket r s
  | .bankBegin r => Sys2Proof.Machine.execBankBegin r s
  | .offerPut r => Sys2Proof.Machine.execOfferPut r s
  | .offersClose r => Sys2Proof.Machine.execOffersClose r s
  | .schedulePut r => Sys2Proof.Machine.execSchedulePut r s
  | .bankCommit r => Sys2Proof.Machine.execBankCommit r s
  | .bankAbandon r => Sys2Proof.Machine.execBankAbandon r s
  | .authorityLoad r => Sys2Proof.Machine.execAuthorityLoad r s
  | .authorityRemove r => Sys2Proof.Machine.execAuthorityRemove r s
  | .authorityClear r => Sys2Proof.Machine.execAuthorityClear r s
  | .accountBalance r => Sys2Proof.Machine.execAccountBalance r s
  | .queryAccount r => Sys2Proof.Machine.execQueryAccount r s
  | .queryClaim r => Sys2Proof.Machine.execQueryClaim r s
  | .configure r => Sys2Proof.Machine.execConfigure r s
  | .dayOpen r => Sys2Proof.Machine.execDayOpen r s
  | .clearConditions r => Sys2Proof.Machine.execClearConditions r s
  | .setMask r => Sys2Proof.Machine.execSetMask r s
  | .identify r => Sys2Proof.Machine.execIdentify r s
  | .status r => Sys2Proof.Machine.execStatus r s
  | .restart r => Sys2Proof.Machine.execRestart r s
  | .unknownKindAnswer f => Sys2Proof.Machine.execUnknownKindAnswer f s
  | .hold r => Sys2Proof.Machine.execHold r s
  | .frameComplete b => Sys2Proof.Machine.execFrameComplete b s
  | .lengthFault b => Sys2Proof.Machine.execLengthFault b s
  | .gapFault => Sys2Proof.Machine.execGapFault s
  | .transmitStart => Sys2Proof.Machine.execTransmitStart s
  | .transmitEnd => Sys2Proof.Machine.execTransmitEnd s
  | .renewExpiry q => Sys2Proof.Machine.execRenewExpiry q s
  | .outputHoldExpiry => Sys2Proof.Machine.execOutputHoldExpiry s
  | .resolveGrant => Sys2Proof.Machine.execResolveGrant s
  | .resolutionComplete => Sys2Proof.Machine.execResolutionComplete s
  | .owedSubtotal l => Sys2Proof.Machine.execOwedSubtotal l s
  | .settlementFrame l => Sys2Proof.Machine.execSettlementFrame l s
  | .settleEnd l => Sys2Proof.Machine.execSettleEnd l s
  | .reservationExpiry c => Sys2Proof.Machine.execReservationExpiry c s
  | .idleWarning l => Sys2Proof.Machine.execIdleWarning l s
  | .autoPark l => Sys2Proof.Machine.execAutoPark l s
  | .parkExpiry c => Sys2Proof.Machine.execParkExpiry c s
  | .hardReset straps => Sys2Proof.Machine.execHardReset straps s
  | .softReset straps => Sys2Proof.Machine.execSoftReset straps s
  | .byteReceived b => Sys2Proof.Machine.execByteReceived b s
  | .resetnLow => Sys2Proof.Machine.execResetnLow s

end Sys2Proof.Machine
end

