-- ==== Sys2Proof/Machine/Step.lean ====
section
/-! DEFINITION. One step: the command at the front of the queue, or one millisecond when the queue is empty. -/

namespace Sys2Proof.Machine

/-- One step of the block. The command at the front of `pending` is carried out on the state with the queue's
rest. On an empty queue the millisecond time base moves by one (R183; assumption 1). -/
def step (s : State) : Host.Outcome State Fault Refusal :=
  match s.pending with
  | [] => .next { s with now := s.now + 1 }
  | c :: rest => exec c { s with pending := rest }

/-- The state with the command a table word spells at the front of its queue; unchanged where the word spells
none. -/
def State.withFetchWord (s : State) (nbits w : Nat) : State :=
  match decodeTableWord nbits w with
  | some c => { s with pending := c :: s.pending }
  | none => s

end Sys2Proof.Machine
end

