-- ==== Sys2Proof/Safety.lean ====
section
/-! DEFINITION. What counts as a safe run of the device: no step stops, and the bounds and laws the manual states
for the queues, the tables and the banks hold. -/

namespace Sys2Proof.Machine

/-- The step goes on: no command of this device faults or is refused. -/
def GoesOn (o : Out) : Prop := ∃ t, o = .next t

/-- A property of states that every step keeps. -/
def Invariant (inv : State → Prop) : Prop := ∀ s t, inv s → step s = .next t → inv t

/-! ### Queues (R167, R168, R170, R173) -/

/-- The inbound queues hold at most 24 and 8 frames (R167). -/
def InboundBounded (s : State) : Prop := s.pool.frames.length ≤ 24 ∧ s.bulk.frames.length ≤ 8

/-- The bulk notice queue never holds two notices of one class (R170). -/
def NoticesDistinct (s : State) : Prop := s.notices.Nodup

/-- At most one device HOLD record is pending per scope (R173). -/
def HoldsDistinct (s : State) : Prop := (s.link.deviceHolds.map (·.scope)).Nodup

/-- From a reset on, STARTED stands at the front of the main queue until its transmission begins (R182). -/
def StartedFirst (s : State) : Prop :=
  s.device.resetLow = false → s.link.lastSent = none →
    ∃ cause rate, s.mainQ.frames.head? = some { kind := 0x62, lane := 0, tag := 0, payload := [cause, rate] }

/-- The slot request list (R169): no claim stands on it twice or beside a slot served to it, and a claim waits there
only while no slot is free. -/
def RequestsSound (s : State) : Prop :=
  (s.mainQ.requests ++ s.mainQ.served).Nodup ∧ (s.mainQ.requests ≠ [] → s.freeSlots = 0)

/-- The lanes in QUOTING. -/
def quotingLanes (s : State) : List LaneNo := allLanes.filter fun l => (s.lane l).state == .quoting

/-- An idle timer runs on a lane in OPEN or TOTALLED only (R158). -/
def IdleTimersPlaced (s : State) : Prop :=
  ∀ l, (s.lane l).idleTimer ≠ none → (s.lane l).state = .opened ∨ (s.lane l).state = .totalled

/-- A stream record stands for a lane in SETTLING (R148). -/
def StreamsPlaced (s : State) : Prop := ∀ l, s.stream l ≠ none → (s.lane l).state = .settling

/-- The slots of the main queue (R168): occupied, reserved and served slots never exceed 24, and each reserved
slot is held for the QUOTE of a lane in QUOTING. -/
def SlotsWithin (s : State) : Prop :=
  s.occupied + s.mainQ.reserved + s.mainQ.served.length ≤ 24 ∧
    s.mainQ.reserved = (quotingLanes s).length ∧ IdleTimersPlaced s ∧ StreamsPlaced s

/-! ### Baskets (R12, R14, R24, R25, R86) -/

/-- The line list of a context (R24, R25): numbered 1, 2, 3 … in order, at most 128 lines, gross within its
limit. -/
def LinesLaw (x : Context) : Prop :=
  x.lines.map (·.number) = List.range' 1 x.lines.length ∧ x.nextLine = x.lines.length + 1 ∧
    x.lines.length ≤ 128 ∧ x.gross ≤ maxAmount

/-- Every context keeps the law of its line list (R24, R25). -/
def LinesSound (s : State) : Prop := ∀ c, LinesLaw (s.ctx c)

/-- A lane and a context name each other (R12), a lane has a context exactly while it holds a basket (R12), a
stream settles the context of its lane (R148), and the park list holds the PARKED contexts under distinct
tickets (R153). -/
def BasketsSound (s : State) : Prop :=
  (∀ l c, (s.lane l).ctx = some c → ∃ a, (s.ctx c).place = .attached a ∧ a.lane = l) ∧
  (∀ c a, (s.ctx c).place = .attached a → (s.lane a.lane).ctx = some c) ∧
  (∀ l, (s.lane l).state.holdsBasket = true ↔ (s.lane l).ctx ≠ none) ∧
  (∀ l st, s.stream l = some st → (s.lane l).state = .settling ∧ (s.lane l).ctx = some st.ctx) ∧
  IdleTimersPlaced s ∧
  (s.parks.list.map (·.ticket)).Nodup ∧ (s.parks.list.map (·.ctx)).Nodup ∧
  (∀ e, e ∈ s.parks.list → ∃ p, (s.ctx e.ctx).place = .parked p ∧ p.ticket = e.ticket) ∧
  (∀ c p, (s.ctx c).place = .parked p → { ticket := p.ticket, ctx := c } ∈ s.parks.list)

/-! ### Tables (R88, R91, R103) -/

/-- The claim table (R88, R91): at most 96 entries with distinct serials; CLAIMS_FULL is pending only while the
table is full of CLAIMED entries. -/
def ClaimsSound (s : State) : Prop :=
  s.claims.length ≤ 96 ∧ (s.claims.map (·.serial)).Nodup ∧
    ((s.cond .claimsFull).pending = true → s.claims.length = 96 ∧ s.oldestSpent = none)

/-- The authority table holds at most 24 entries with distinct ids (R103). -/
def AuthoritySound (s : State) : Prop := s.authority.length ≤ 24 ∧ (s.authority.map (·.id)).Nodup

/-! ### Banks (R40, R41, R58) -/

/-- The fields of a bank fit its state (R39 to R41). -/
def BankLaw (x : Bank) : Prop :=
  match x.state with
  | .free => x.pins = 0 ∧ x.offers = [] ∧ x.closed = false ∧ x.schedule = none
  | .staging => x.pins = 0 ∧ (x.closed && x.schedule.isSome) = false
  | .ready => x.pins = 0 ∧ x.closed = true ∧ x.schedule.isSome = true
  | .current => x.closed = true ∧ x.schedule.isSome = true
  | .draining => 1 ≤ x.pins ∧ x.closed = true ∧ x.schedule.isSome = true

/-- The pairs of bank states of R40. -/
def pairOk : BankState → BankState → Bool
  | .free, .free => true
  | .staging, .free => true
  | .ready, .free => true
  | .current, .free => true
  | .current, .staging => true
  | .current, .ready => true
  | .current, .draining => true
  | .free, .staging => true
  | .free, .ready => true
  | .free, .current => true
  | .staging, .current => true
  | .ready, .current => true
  | .draining, .current => true
  | _, _ => false

/-- The bank table (R40, R41), and a SERVING device has a CURRENT bank and an open day (R58, R180). -/
def BanksSound (s : State) : Prop :=
  BankLaw (s.bank 0) ∧ BankLaw (s.bank 1) ∧ pairOk (s.bank 0).state (s.bank 1).state = true ∧
    (s.device.serving = true → s.currentBank ≠ none ∧ 0 < s.device.day)

/-! ### Scheduler and conditions (R139, R165) -/

/-- No pass-over count exceeds 4 (R139). -/
def PassOversBounded (s : State) : Prop := ∀ l, (s.lane l).passOver ≤ 4

/-- The detail of LINK_FAULT is the link port's last fault kind (R165). -/
def FaultDetailAgrees (s : State) : Prop := (s.cond .linkFault).detail.fault = s.link.lastFault

/-! ### What a take needs (R4, R166, R167) -/

/-- The lane controller takes request `r`, a frame of kind `k`, on lane `l` now (R4): the device is not in reset
and no RESTART has been taken, the frame is the next lane request, and a main-queue slot is there for it. -/
def TakesLane (s : State) (k : Byte) (r : Req) (l : LaneNo) : Prop :=
  s.device.resetLow = false ∧ s.device.restart = .none ∧ laneOf r.lane = some l ∧
    s.nextLaneRequest = some (r.frame k) ∧ s.slotFor .laneTake = true

/-- The device-level request handler takes frame `f` now (R167). -/
def TakesBulk (s : State) (f : Frame) : Prop :=
  s.device.resetLow = false ∧ s.device.restart = .none ∧ s.bulk.frames.head? = some f ∧
    s.slotFor .bulkTake = true

/-- Lane `l` is OPEN or TOTALLED with context `c` attached (R3, R12). -/
def OnBasket (s : State) (l : LaneNo) (c : CtxNo) (a : Attachment) : Prop :=
  ((s.lane l).state = .opened ∨ (s.lane l).state = .totalled) ∧ (s.lane l).ctx = some c ∧
    (s.ctx c).place = .attached a ∧ a.lane = l

/-! ### What a step leaves alone -/

/-- Every lane record but one is unchanged. -/
def OtherLanesKept (s t : State) (l : LaneNo) : Prop := ∀ m, m ≠ l → t.lane m = s.lane m

/-- Every context but one is unchanged. -/
def OtherContextsKept (s t : State) (c : CtxNo) : Prop := ∀ d, d ≠ c → t.ctx d = s.ctx d

/-- Every class but one has its pending flag and detail unchanged, and the mask is unchanged. -/
def OtherConditionsKept (s t : State) (c : CondClass) : Prop :=
  t.conds.mask = s.conds.mask ∧ ∀ d, d ≠ c → t.cond d = s.cond d

/-! ### What a take changes besides the basket (R167, R169, R172) -/

/-- A HOLD record of a scope has become pending (R173): it stands in the place of the pending one of its scope, with its
own time, or, without one, at the end. -/
def HoldJoins (scope : HoldScope) (time : Nat) (old new : List DeviceHold) : Prop :=
  ((∃ h ∈ old, h.scope = scope) → new = old.map fun h => if h.scope = scope then { h with time := time } else h) ∧
    ((∀ h ∈ old, h.scope ≠ scope) → new = old ++ [{ scope := scope, time := time }])

/-- Frame `f` has left its inbound queue (R167). The take that leaves a CONGESTED queue empty makes it CLEAR, stops its
renew timer and, with RELEASE set, makes a HOLD of time 0 pending (R172); any other take changes no congestion state. -/
def FrameTaken (q : QueueId) (f : Frame) (s t : State) : Prop :=
  let left := (s.inbound q).frames.erase f
  let emptied := (s.inbound q).congested = true ∧ left = []
  (¬ emptied → t.inbound q = { s.inbound q with frames := left } ∧ t.link.deviceHolds = s.link.deviceHolds) ∧
    (emptied → t.inbound q = { frames := [], congested := false, renew := none } ∧
      (s.config.release = true →
        HoldJoins (match q with | .pool => .full | .bulk => .bulk) 0 s.link.deviceHolds t.link.deviceHolds) ∧
      (s.config.release = false → t.link.deviceHolds = s.link.deviceHolds))

/-- A claim of R169 needs a slot: the take of a lane request that is eligible, the take of a frame of the bulk queue,
the next frame of a settlement stream, a SUBTOTAL owed. No request is taken once a RESTART has been (R181). -/
def needsSlot (s : State) : Claim → Bool
  | .laneTake => decide (s.device.restart = .none) && s.pool.frames.any fun f =>
      match laneOf f.lane with
      | some l => decide ((s.lane l).state ≠ .quoting ∧ (s.lane l).state ≠ .settling)
      | none => false
  | .bulkTake => decide (s.device.restart = .none) && decide (s.bulk.frames ≠ [])
  | .stream l => decide (s.stream l ≠ none)
  | .owed l => (s.lane l).subtotalOwed

/-- The main queue's slots after a step, from the slot request list and the served claims that the step's own effect
left (R169): a claim that needs no slot any more is off both; free slots have gone to the claims at the head of the
list; and where none is left, every other claim that needs one has joined the list at its end, once each, in an order
that is open (assumption 5). That a served slot is kept until its claim uses it is the model's choice (assumption 6). -/
def SlotsServed (requests served : List Claim) (draws : Nat) (t : State) : Prop :=
  let listed := requests.filter (needsSlot t)
  let kept := served.filter (needsSlot t)
  let free := 24 - (t.occupied + t.mainQ.reserved + kept.length)
  t.mainQ.served = kept ++ listed.take free ∧
    ∃ new, t.mainQ.requests = listed.drop free ++ new ∧
      (listed.length < free → new = []) ∧
      (free ≤ listed.length → new.Nodup ∧
        ∀ c, c ∈ new ↔ needsSlot t c = true ∧ c ∉ listed.drop free ∧ c ∉ t.mainQ.served) ∧
      t.draws = if 2 ≤ new.length then draws + 1 else draws

/-- Nothing changes but the lane records, the contexts, the accounts and what the take of a lane request itself
changes: the lane pool, the pending device HOLD records and the main queue, whose slots are served by R169. -/
def LaneFrame (s t : State) : Prop :=
  t = { s with
    pool := t.pool, link := { s.link with deviceHolds := t.link.deviceHolds }
    mainQ := t.mainQ, draws := t.draws, lanes := t.lanes, ctxs := t.ctxs, accounts := t.accounts } ∧
  SlotsServed s.mainQ.requests (s.mainQ.served.erase .laneTake) s.draws t

/-- Nothing changes but what the take of a bulk request itself changes: the bulk queue, the pending device HOLD
records and the main queue, whose slots are served by R169. -/
def BulkFrame (s t : State) : Prop :=
  t = { s with
    bulk := t.bulk, link := { s.link with deviceHolds := t.link.deviceHolds }
    mainQ := t.mainQ, draws := t.draws } ∧
  SlotsServed s.mainQ.requests (s.mainQ.served.erase .bulkTake) s.draws t

/-! ### Replies (R5, R189) -/

/-- The request has left the lane pool (R172) and its reply stands at the end of the main queue, in the slot reserved at
the take. -/
def LaneAnswered (s t : State) (k : Byte) (r : Req) (o : OutcomeCode) (revision : Counter)
    (fields : List Byte) : Prop :=
  FrameTaken .pool (r.frame k) s t ∧ t.mainQ.reserved = s.mainQ.reserved ∧
    t.mainQ.frames = s.mainQ.frames ++
      [{ kind := 0x80 + k, lane := r.lane, tag := r.tag
         payload := o.code :: (enc 2 revision.toNat ++ fields) }]

/-- The request has left the bulk queue (R172) and its reply stands at the end of the main queue, in the slot reserved at
the take. -/
def BulkAnswered (s t : State) (k : Byte) (r : Req) (o : OutcomeCode) (fields : List Byte) : Prop :=
  FrameTaken .bulk (r.frame k) s t ∧ t.mainQ.reserved = s.mainQ.reserved ∧
    t.mainQ.frames = s.mainQ.frames ++
      [{ kind := 0x80 + k, lane := r.lane, tag := r.tag, payload := o.code :: fields }]

/-! ### Changes of a basket (R5, R7, R15, R125, R158) -/

/-- The idle timer of a lane as a start leaves it (R158). -/
def idleStart (s : State) : Option Nat :=
  if s.config.idleTime = 0 then none else some (s.now + s.config.idleTime * 1000)

/-- A lane after a request taken in OPEN or TOTALLED that leaves its state (R5, R158). -/
def watched (s : State) (l : LaneNo) : Lane := { s.lane l with idleStage := 0, idleTimer := idleStart s }

/-- A context attached by `a` after one revision increase (R15). -/
def revised (a : Attachment) (x : Context) : Context :=
  { x with
    revision := x.revision + 1, quote := none
    wanted := x.wanted || a.tracking == .tracking }

/-- The accounts with the timer of a context's reservation restarted, and nothing else changed (R5, R125). -/
def accountsTouched (s : State) (c : CtxNo) : List AccountEntry := (restartReservation c s).accounts

/-- A change of a basket answered OK (R7): the context becomes `x`, the lane is OPEN with its idle timer
restarted and no subtotal owed, and no other lane or context changes. -/
def BasketChanged (s t : State) (k : Byte) (r : Req) (l : LaneNo) (c : CtxNo) (x : Context)
    (fields : List Byte) : Prop :=
  LaneAnswered s t k r .ok x.revision fields ∧ t.ctx c = x ∧ OtherContextsKept s t c ∧
    t.lane l = { watched s l with state := .opened, subtotalOwed := false } ∧ OtherLanesKept s t l

/-- The lines of a context with one of them changed. -/
def editLine (x : Context) (n : Nat) (f : Line → Line) : List Line :=
  x.lines.map fun y => if y.number = n then f y else y

/-- The figures every accepted line request reports (R37): gross, lines held, lines ACTIVE. -/
def figuresOf (ls : List Line) : List Byte :=
  enc 4 (grossOf ls) ++ enc 1 ls.length ++ enc 1 (ls.filter (!·.voided)).length

/-- The account table as R116 and R117 describe it: distinct ids, and at most one reservation of a context in an
entry. -/
def AccountsOrdered (s : State) : Prop :=
  (s.accounts.map (·.id)).Nodup ∧ ∀ e, e ∈ s.accounts → (e.reservations.map (·.ctx)).Nodup

/-! ### What a basket holds outside its context (R53, R54, R88, R91, R116, R117) -/

/-- An account entry without the reservation of a context (R117). -/
def withoutHold (c : CtxNo) (e : AccountEntry) : AccountEntry :=
  { e with reservations := e.reservations.filter fun d => d.ctx ≠ c }

/-- The entry an account has once context `c` holds no reservation and no longer refers to account `dropped`, whose
balance has fallen by `used` points (R116, R117, R130): none when `c` was its last reference. -/
def accountLeft (s : State) (c : CtxNo) (dropped : Option Nat) (used id : Nat) : Option AccountEntry :=
  (s.account id).bind fun e =>
    if dropped = some id then
      if e.refs ≤ 1 then none
      else some { withoutHold c e with balance := e.balance - used, refs := e.refs - 1 }
    else some (withoutHold c e)

/-- The account a context refers to, if any. -/
def referredId (s : State) (c : CtxNo) : Option Nat := (s.ctx c).account.map (·.id)

/-- The claims a context owns are gone, and CLAIMS_FULL with the first of them (R91, R100). -/
def ClaimsFreed (s t : State) (c : CtxNo) : Prop :=
  t.claims = s.claims.filter (fun e => e.state ≠ .claimed c (s.ctx c).incarnation) ∧
    ((∃ e ∈ s.claims, e.state = .claimed c (s.ctx c).incarnation) → t.cond .claimsFull = Cond.clear) ∧
    ((∀ e ∈ s.claims, e.state ≠ .claimed c (s.ctx c).incarnation) → t.cond .claimsFull = s.cond .claimsFull)

/-- A pin on bank `b` is released (R53): its count falls by one, and a DRAINING bank whose last pin it was becomes
FREE, keeps its generation and raises BANK_DRAINED (R54). -/
def PinReleased (s t : State) (b : BankNo) : Prop :=
  (∀ d, d ≠ b → t.bank d = s.bank d) ∧
    ((s.bank b).state = .draining ∧ (s.bank b).pins ≤ 1 →
      t.bank b = { Bank.initial with generation := (s.bank b).generation } ∧
      t.cond .bankDrained =
        { pending := true, detail := { (s.cond .bankDrained).detail with generation := (s.bank b).generation } }) ∧
    (¬ ((s.bank b).state = .draining ∧ (s.bank b).pins ≤ 1) →
      t.bank b = { s.bank b with pins := (s.bank b).pins - 1 } ∧ t.cond .bankDrained = s.cond .bankDrained)

/-- A lane whose basket has left it (R12, R136). -/
def vacated (x : Lane) : Lane :=
  { x with
    state := .idle, ctx := none, idleStage := 0, idleTimer := none, subtotalOwed := false, passOver := 0 }

/-- The aged list without a lane (R136). -/
def agedWithout (s : State) (l : LaneNo) : Scheduler :=
  { s.sched with aged := s.sched.aged.filter fun m => m ≠ l }

/-- The contexts of an entry that the cut rule reduces for a new balance, youngest first, when `held` are its
reservations, oldest first (R127). -/
def cutContexts (held : List Reservation) (balance : Nat) : List CtxNo :=
  (cutYoungest ((held.map (·.points)).sum - balance) held.reverse).2.1

/-- The reservations the cut rule leaves, oldest first (R127). -/
def cutHolds (held : List Reservation) (balance : Nat) : List Reservation :=
  (cutYoungest ((held.map (·.points)).sum - balance) held.reverse).1.reverse

/-- The bulk notice queue after a raise of class `c`, where it holds `queued` before (R170, R177): a notice joins the end
when the class was not pending, is not masked and has none in the queue. -/
def noticesAfter (s : State) (c : CondClass) (queued : List CondClass) : List CondClass :=
  if (s.cond c).pending = false ∧ s.masked c = false ∧ c ∉ queued then queued ++ [c] else queued

/-- The bulk notice queue after the release of a pin on bank `b` (R54): a notice is due for the last pin of a DRAINING
bank only. -/
def drainNotices (s : State) (b : BankNo) : List CondClass :=
  if (s.bank b).state = .draining ∧ (s.bank b).pins ≤ 1 then noticesAfter s .bankDrained s.notices else s.notices

/-- Of the contexts in `cut`, those reduced by the cut rule, each has moved to a new revision with what that does to
its lane; the lanes have joined the lane set of HOLD_CUT, which is raised, with its notice, when there is one (R15,
R127). Lane `l` and context `c` are left out. -/
def CutsShown (s t : State) (cut : List CtxNo) (l : Option LaneNo) (c : Option CtxNo) : Prop :=
  (∀ d, some d ≠ c → t.ctx d = if d ∈ cut then (s.ctx d).bumped else s.ctx d) ∧
    (∀ m, some m ≠ l → t.lane m = if m ∈ lanesOf s cut then (s.lane m).overtaken else s.lane m) ∧
    t.cond .holdCut = (if cut = [] then s.cond .holdCut else
      { pending := true
        detail := { (s.cond .holdCut).detail with
          lanes := (s.cond .holdCut).detail.lanes ||| laneSetOf (lanesOf s cut) } }) ∧
    OtherConditionsKept s t .holdCut ∧
    t.notices = (if cut = [] then s.notices else noticesAfter s .holdCut s.notices)

/-! ### Steps of the device itself -/

/-- `t` is `u` with the slots of the main queue served and the slot request list brought up to date (R169). -/
def ClaimsSettled (u t : State) : Prop :=
  t = { u with
    mainQ := { u.mainQ with requests := t.mainQ.requests, served := t.mainQ.served }, draws := t.draws } ∧
  SlotsServed u.mainQ.requests u.mainQ.served u.draws t

/-- The device is out of reset (R162). -/
def Live (s : State) : Prop := s.device.resetLow = false

/-- The coupon a payload of PRESENT_COUPON describes, its fields in range (R93, checks 1 and 2; R94, R187). -/
def PresentedCoupon (p : List Byte) (k : Coupon) : Prop :=
  (field p 6 1 = 1 ∧ 1 ≤ field p 7 2 ∧
      k = { serial := field p 0 6, kind := .offerKey (field p 7 2), active := true }) ∨
    (field p 6 1 = 2 ∧ 1 ≤ field p 9 4 ∧ field p 9 4 ≤ 999999 ∧ field p 13 4 ≤ 99999999 ∧
      k = { serial := field p 0 6, kind := .storeValue (field p 9 4) (field p 13 4), active := true })

/-- A coupon list has room for a coupon: 12 in all, 4 of them STORE_VALUE (R93, checks 3 and 4). -/
def CouponRoom (k : Coupon) (ks : List Coupon) : Prop :=
  ks.length < 12 ∧ ∀ value least, k.kind = .storeValue value least → storeValues ks < 4

/-- A coupon may join the list of a context attached by `a`: there is room for it, its serial is not yet among the
coupons, and for OFFER_KEY its offer is not yet keyed and is held by the pinned bank with a window around the store
day (R93, checks 3 to 8). -/
def CouponFits (s : State) (a : Attachment) (x : Context) (k : Coupon) : Prop :=
  CouponRoom k x.coupons ∧ (k.serial ≠ 0 → ∀ y ∈ x.coupons, y.serial ≠ k.serial) ∧
    ∀ id, k.kind = .offerKey id → (∀ y ∈ x.coupons, y.kind ≠ .offerKey id) ∧
      ∃ o, (s.bank a.bank).offer id = some o ∧ o.firstDay ≤ a.day ∧ a.day ≤ o.lastDay

/-- What PARK and auto-park leave in common (R153, R154, R160): the reservation released with one revision increase
when there was one, the pin released, the context PARKED under the first unused ticket after the last one, and the
lane IDLE. -/
def BasketParked (s t : State) (l : LaneNo) (c : CtxNo) (a : Attachment) (ticket : Nat) : Prop :=
  (1 ≤ ticket ∧ ticket ≤ 255 ∧ (∀ e ∈ s.parks.list, e.ticket ≠ ticket) ∧
    ∃ k, ticket = (s.parks.lastTicket + k) % 255 + 1 ∧
      ∀ j, j < k → ∃ e ∈ s.parks.list, e.ticket = (s.parks.lastTicket + j) % 255 + 1) ∧
  t.ctx c = { s.ctx c with
    place := .parked { ticket := ticket, since := s.now, expires := s.now + s.config.parkLifetime * 1000 }
    revision := if s.reservation c = none then (s.ctx c).revision else (s.ctx c).revision + 1
    quote := none, wanted := false } ∧
  OtherContextsKept s t c ∧ t.parks = { list := s.parks.list ++ [{ ticket := ticket, ctx := c }], lastTicket := ticket } ∧
  t.lane l = vacated (s.lane l) ∧ OtherLanesKept s t l ∧ PinReleased s t a.bank ∧ t.sched = agedWithout s l ∧
  ∀ j, t.account j = accountLeft s c none 0 j

/-- `off` goes with the first check of a list that fails, as BAD_FIELD names it (R188). -/
def FirstFails (checks : List (Bool × Nat)) (off : Nat) : Prop :=
  ∃ n : Nat, checks[n]? = some (false, off) ∧ ∀ (m : Nat) (x : Bool × Nat), m < n → checks[m]? = some x → x.1 = true

/-- The payload length of a lane request, by its kind (R187). -/
def laneLength (k : Byte) : Nat :=
  if k = 0x02 then 16 else if k = 0x03 then 3 else if k = 0x05 then 9 else if k = 0x07 then 17
  else if k = 0x09 then 11 else if k = 0x0B then 4
  else if k = 0x04 ∨ k = 0x06 ∨ k = 0x08 ∨ k = 0x0D ∨ k = 0x12 ∨ k = 0x13 then 1 else 0

/-- The payload length of a bulk request other than OFFER_PUT and AUTHORITY_LOAD, by its kind (R187). -/
def bulkLength (k : Byte) : Nat :=
  if k = 0x20 ∨ k = 0x2D ∨ k = 0x2E ∨ k = 0x2F then 2 else if k = 0x22 ∨ k = 0x2B then 6
  else if k = 0x23 then 18 else if k = 0x27 then 3 else if k = 0x29 then 9 else if k = 0x2A then 5
  else if k = 0x2C then 28 else if k = 0x31 then 1 else 0

/-- The transmitter may begin a frame: none is in transmission, no soft reset is due, and a quiet time after a cut frame
is over (R171, R181, R182). -/
def AtBoundary (s : State) : Prop :=
  s.link.tx = none ∧ s.device.restart ≠ .due ∧ ∀ d, s.link.quietUntil = some d → d ≤ s.now

/-- A timer has run out. -/
def Due (s : State) (timer : Option Nat) : Prop := ∃ d, timer = some d ∧ d ≤ s.now

/-- The lane a grant goes to (R138): the waiting priority lane, unless the previous grant went to it and the aged list is
not empty; else the first waiting lane of the aged list; else the first waiting lane in the normal order. -/
def GrantGoesTo (s : State) (l : LaneNo) : Prop :=
  let passed := s.sched.previous = .priority ∧ s.sched.aged ≠ []
  (s.config.priority = some l ∧ s.waiting l = true ∧ ¬ passed) ∨
    ((∀ p, s.config.priority = some p → s.waiting p = true → passed) ∧
      (s.sched.aged.find? s.waiting = some l ∨
        (s.sched.aged.find? s.waiting = none ∧
          (s.config.groupOrder.flatMap fun g => allLanes.filter fun m => s.laneGroup m = g).find? s.waiting = some l)))

/-- The payload of a SUBTOTAL of a context and its quote (R143). -/
def subtotalPayload (c : CtxNo) (q : Quote) : List Byte := ctxByte c :: q.summary

/-- A frame of the main queue is a SUBTOTAL of a lane for a context at an incarnation (R143). -/
def SubtotalOf (l : LaneNo) (c : CtxNo) (inc : Counter) (f : Frame) : Prop :=
  f.kind = 0x60 ∧ f.lane = laneByte l ∧ f.payload.take 3 = ctxByte c :: enc 2 inc.toNat

/-! ### Pricing (chapter 4) -/

/-- Lower rank first, and between equal ranks the lower offer id (R66, R70, R71, R73, R74, R79). -/
def RanksBefore (o p : Offer) : Prop := o.rank < p.rank ∨ (o.rank = p.rank ∧ o.id < p.id)

/-- Of the offers that satisfy `among`, `o` has the greatest score; between equal scores it has the lower rank, and
between equal ranks the lower id. -/
def BestOf (among : Offer → Prop) (score : Offer → Nat) (o : Offer) : Prop :=
  among o ∧ ∀ p, among p → p ≠ o → score p < score o ∨ (score p = score o ∧ RanksBefore o p)

/-- A department is in an offer's department set (R64). -/
def holdsDept (o : Offer) (d : Nat) : Bool :=
  match o.target with
  | .depts set => set.getLsbD d
  | .item _ => false

/-- A line offer targets a line (R64). -/
def TargetsLine (o : Offer) (l : SnapLine) : Prop := o.target = .item l.item ∨ holdsDept o l.dept = true

/-- An ITEM_OFF or DEPT_PERCENT offer. -/
def PerLine (o : Offer) : Prop := o.kind = .itemOff ∨ o.kind = .deptPercent

/-- An applicable QTY_BREAK that the eligible lines of an item code together reach (R64, R66). -/
def EarnsBreak (os : List Offer) (all : List SnapLine) (item : Nat) (o : Offer) : Prop :=
  o ∈ os ∧ o.kind = .qtyBreak ∧ o.target = .item item ∧
    o.threshold ≤ ((all.filter fun l => l.item = item ∧ l.noOffers = false ∧ l.override = none).map (·.qty)).sum

/-- What an offer saves a line on a base amount (R69). -/
def savingOn (o : Offer) (l : SnapLine) (base : Nat) : Nat :=
  match o.kind with
  | .qtyBreak => if o.value < l.list then l.qty * (l.list - o.value) else 0
  | .itemOff => min (l.qty * o.value) base
  | .deptPercent => base * o.value / 10000
  | .spendOff | .pointsBoost => 0

/-- The remaining count of an offer covers a line's whole quantity, after the uses `us` (R67). -/
def unitsLeft (us : List Use) (o : Offer) (qty : Nat) : Bool :=
  decide (o.unitLimit = 0 ∨ qty ≤ o.unitLimit - ((us.filter fun u => u.offer = o.id).map (·.qty)).sum)

/-- An exclusive candidate of an eligible line, after the uses `us` on the lines before it (R66, R67, R68). -/
def ExclusiveFor (os : List Offer) (all : List SnapLine) (us : List Use) (l : SnapLine) (o : Offer) : Prop :=
  o ∈ os ∧ TargetsLine o l ∧ unitsLeft us o l.qty = true ∧
    ((PerLine o ∧ o.stackable = false) ∨ BestOf (EarnsBreak os all l.item) (·.threshold) o)

/-- The exclusive saving of an eligible line (R70): the best candidate by its saving on the gross amount, cut to the
line's floor; nothing where that leaves 0. -/
def ExclusiveTaken (os : List Offer) (all : List SnapLine) (us : List Use) (l : SnapLine) (ex : List Use) : Prop :=
  ((∀ o, ¬ ExclusiveFor os all us l o) ∧ ex = []) ∨
    ∃ o saving, BestOf (ExclusiveFor os all us l) (fun p => savingOn p l (l.qty * l.list)) o ∧
      saving = min (savingOn o l (l.qty * l.list)) (l.qty * l.list - l.qty * l.floor) ∧
      ex = if saving = 0 then [] else [{ offer := o.id, qty := l.qty, saving := saving }]

/-- The stackable savings of an eligible line on the base left by its exclusive saving (R71): each candidate in rank
order, with the count that remains at its turn, cut to the room that is left; one that would give 0 is not used. -/
def StackablesTaken (os : List Offer) (us : List Use) (l : SnapLine) (base : Nat) (stacked : List Use) : Prop :=
  ∃ (order : List Offer) (turns : List (Option Use)),
    order.Pairwise RanksBefore ∧
    (∀ o, o ∈ order ↔ o ∈ os ∧ TargetsLine o l ∧ PerLine o ∧ o.stackable = true) ∧
    turns.length = order.length ∧ stacked = turns.filterMap id ∧
    ∀ n o, order[n]? = some o →
      let used := (turns.take n).filterMap id
      let saving := min (savingOn o l base) (base - l.qty * l.floor - (used.map (·.saving)).sum)
      turns[n]? = some (if unitsLeft (us ++ used) o l.qty = true ∧ 0 < saving
        then some { offer := o.id, qty := l.qty, saving := saving } else none)

/-- How a line of the snapshot is priced, after the uses `us` on the lines before it (R65, R72). -/
def LinePriced (os : List Offer) (all : List SnapLine) (us : List Use) (l : SnapLine) (y : PricedLine) : Prop :=
  (∀ p, l.override = some p →
    y = { result := { line := l.number, net := l.qty * p, exclusive := 0, stackable := 0 }, uses := [] }) ∧
  (l.override = none → l.noOffers = true →
    y = { result := { line := l.number, net := l.qty * l.list, exclusive := 0, stackable := 0 }, uses := [] }) ∧
  (l.override = none → l.noOffers = false → ∃ ex stacked base,
    ExclusiveTaken os all us l ex ∧ base = l.qty * l.list - (ex.map (·.saving)).sum ∧
    StackablesTaken os (us ++ ex) l base stacked ∧
    y = { result :=
            { line := l.number, net := base - (stacked.map (·.saving)).sum
              exclusive := match ex.head? with | some u => u.offer | none => 0
              stackable := stacked.length }
          uses := ex ++ stacked })

/-- The lines of a snapshot with their nets in a quote. -/
def netsOf (q : Snapshot) (v : Quote) : List (SnapLine × Nat) := q.lines.zip (v.lines.map (·.net))

/-- An applicable spend offer that qualifies (R73). -/
def SpendQualifies (os : List Offer) (nets : List (SnapLine × Nat)) (o : Offer) : Prop :=
  o ∈ os ∧ o.kind = .spendOff ∧
    o.threshold ≤ ((nets.filter fun x => x.1.noOffers = false ∧ holdsDept o x.1.dept).map (·.2)).sum

/-- An applicable boost on a department (R79). -/
def BoostsDept (os : List Offer) (dept : Nat) (o : Offer) : Prop :=
  o ∈ os ∧ o.kind = .pointsBoost ∧ holdsDept o dept = true

end Sys2Proof.Machine
end

