-- ==== Sys2Proof/WellFormed.lean ====
section
/-! DEFINITION. Which commands are well formed: those whose operands a frame or a byte of the link can carry and
that the manual counts under the row of the constructor. The meanings are total and do not assume it. -/

namespace Sys2Proof

open Machine

/-- A request's LANE is 0 to 8 (R163) and its payload fits a frame (R163). -/
def Req.wf (r : Req) : Bool := decide (r.lane.toNat ≤ 8) && decide (r.payload.length ≤ 240)

/-- A frame UNKNOWN_KIND_ANSWER answers (R166): unknown KIND, LANE above 8, or a malformed HOLD. -/
def Frame.unanswerable (f : Frame) : Bool :=
  !isKnownKind f.kind || (f.kind != kindHold && decide (8 < f.lane.toNat))
    || (f.kind == kindHold && !holdWellFormed f.payload)

/-- The KIND of a request command (R186); none for the other commands. -/
def Instr.kind? : Instr → Option Byte
  | .openBasket _ => some 0x01
  | .addLine _ => some 0x02
  | .setQty _ => some 0x03
  | .voidLine _ => some 0x04
  | .override _ => some 0x05
  | .clearOverride _ => some 0x06
  | .presentCoupon _ => some 0x07
  | .withdrawCoupon _ => some 0x08
  | .attachAccount _ => some 0x09
  | .detachAccount _ => some 0x0A
  | .redeem _ => some 0x0B
  | .cancelRedeem _ => some 0x0C
  | .setTracking _ => some 0x0D
  | .total _ => some 0x0E
  | .finalize _ => some 0x0F
  | .voidBasket _ => some 0x10
  | .park _ => some 0x11
  | .recallBasket _ => some 0x12
  | .queryBasket _ => some 0x13
  | .bankBegin _ => some 0x20
  | .offerPut _ => some 0x21
  | .offersClose _ => some 0x22
  | .schedulePut _ => some 0x23
  | .bankCommit _ => some 0x24
  | .bankAbandon _ => some 0x25
  | .authorityLoad _ => some 0x26
  | .authorityRemove _ => some 0x27
  | .authorityClear _ => some 0x28
  | .accountBalance _ => some 0x29
  | .queryAccount _ => some 0x2A
  | .queryClaim _ => some 0x2B
  | .configure _ => some 0x2C
  | .dayOpen _ => some 0x2D
  | .clearConditions _ => some 0x2E
  | .setMask _ => some 0x2F
  | .identify _ => some 0x30
  | .status _ => some 0x31
  | .restart _ => some 0x32
  | .unknownKindAnswer _ => none
  | .hold _ => some 0x40
  | .frameComplete _ => none
  | .lengthFault _ => none
  | .gapFault => none
  | .transmitStart => none
  | .transmitEnd => none
  | .renewExpiry _ => none
  | .outputHoldExpiry => none
  | .resolveGrant => none
  | .resolutionComplete => none
  | .owedSubtotal _ => none
  | .settlementFrame _ => none
  | .settleEnd _ => none
  | .reservationExpiry _ => none
  | .idleWarning _ => none
  | .autoPark _ => none
  | .parkExpiry _ => none
  | .hardReset _ => none
  | .softReset _ => none
  | .byteReceived _ => none
  | .resetnLow => none

/-- The request operands of a command that has them. -/
def Instr.req? : Instr → Option Req
  | .openBasket r | .addLine r | .setQty r | .voidLine r | .override r | .clearOverride r
  | .presentCoupon r | .withdrawCoupon r | .attachAccount r | .detachAccount r | .redeem r
  | .cancelRedeem r | .setTracking r | .total r | .finalize r | .voidBasket r | .park r | .recallBasket r
  | .queryBasket r | .bankBegin r | .offerPut r | .offersClose r | .schedulePut r | .bankCommit r
  | .bankAbandon r | .authorityLoad r | .authorityRemove r | .authorityClear r | .accountBalance r
  | .queryAccount r | .queryClaim r | .configure r | .dayOpen r | .clearConditions r | .setMask r
  | .identify r | .status r | .restart r | .hold r => some r
  | .unknownKindAnswer _ | .frameComplete _ | .lengthFault _ | .gapFault | .transmitStart | .transmitEnd
  | .renewExpiry _ | .outputHoldExpiry | .resolveGrant | .resolutionComplete | .owedSubtotal _
  | .settlementFrame _ | .settleEnd _ | .reservationExpiry _ | .idleWarning _ | .autoPark _ | .parkExpiry _
  | .hardReset _ | .softReset _ | .byteReceived _ | .resetnLow => none

/-- The frame a command takes or delivers, for the commands that name one. -/
def Instr.frame? (i : Instr) : Option Frame :=
  match i with
  | .unknownKindAnswer f => some f
  | _ => match i.kind?, i.req? with
    | some k, some r => some (r.frame k)
    | _, _ => none

/-- A well-formed command. A HOLD record's payload is well formed and its LANE is any byte (R166), a byte that
makes a LENGTH fault is above 240 (R164). -/
def Instr.wf (i : Instr) : Bool :=
  match i with
  | .unknownKindAnswer f => decide (f.payload.length ≤ 240) && f.unanswerable
  | .hold r => holdWellFormed r.payload
  | .lengthFault b => decide (240 < b.toNat)
  | _ => match i.req? with
    | some r => r.wf
    | none => true

end Sys2Proof
end

