-- ==== Sys2Proof/Certificates/Slice0/Obligations.lean ====
section
/-! DEFINITION. The statements about the device that the provers are asked to prove. Each lane or bulk request is
stated with what its reply carries, what it changes and what it leaves alone; the hypotheses are the conditions
under which its chapter says that it is carried out. -/

open Sys2Proof Sys2Proof.Machine

/-! ### The step -/

/-- A step carries out the command at the front of the queue, on the state with the queue's rest. The queue of
commands is the model's choice (assumption 1). -/
def Obligations.StepRunsTheFrontCommand : Prop :=
  ∀ (c : Instr) (rest : List Instr) (s : State),
    step { s with pending := c :: rest } = exec c { s with pending := rest }

/-- No step stops: every command, in every state, ends in a next state (00_scope, "Outcome codes"; R165, R184). That
the model has no stop is its reading of those rules (assumption 25). -/
def Obligations.NoStepStops : Prop := ∀ s : State, GoesOn (step s)

/-- What reset leaves (R1, R13, R39, R134, R172, R174, R176, R179, R180, R182): every lane IDLE, every context and
bank empty, the tables and queues empty but for the STARTED notice of cause POWER, the default configuration, no
condition and no mask, no day and the device UNLOADED. The strap value 0 in STARTED is the model's (assumption 3). So
is the tag 0 of a lane record (assumption 23). It satisfies every law stated as an invariant below. -/
def Obligations.ResetLeavesTheDefaultsAndTheInvariants : Prop :=
  (∀ l, State.reset.lane l = Lane.initial) ∧ (∀ c, State.reset.ctx c = Context.initial) ∧
    (∀ b, State.reset.bank b = Bank.initial) ∧ (∀ l, State.reset.stream l = none) ∧
    (∀ d, State.reset.cond d = Cond.clear) ∧ State.reset.conds.mask = 0 ∧ State.reset.attnLow = false ∧
    State.reset.config = Configuration.default ∧ State.reset.claims = [] ∧ State.reset.accounts = [] ∧
    State.reset.authority = [] ∧ State.reset.parks = { list := [], lastTicket := 0 } ∧
    State.reset.sched = { flight := none, previous := .none, aged := [] } ∧
    State.reset.pool = Inbound.empty ∧ State.reset.bulk = Inbound.empty ∧ State.reset.notices = [] ∧
    State.reset.mainQ.frames = [{ kind := 0x62, lane := 0, tag := 0, payload := [1, 0] }] ∧
    State.reset.mainQ.reserved = 0 ∧ State.reset.link.rx = .hunt ∧ State.reset.link.lastFault = .none ∧
    State.reset.link.hold = .none ∧ State.reset.link.deviceHolds = [] ∧ State.reset.device.day = 0 ∧
    State.reset.device.serving = false ∧
    InboundBounded State.reset ∧ NoticesDistinct State.reset ∧ HoldsDistinct State.reset ∧
    StartedFirst State.reset ∧ RequestsSound State.reset ∧ SlotsWithin State.reset ∧ LinesSound State.reset ∧
    BasketsSound State.reset ∧ ClaimsSound State.reset ∧ AuthoritySound State.reset ∧ AccountsOrdered State.reset ∧
    BanksSound State.reset ∧ PassOversBounded State.reset ∧ FaultDetailAgrees State.reset

/-! ### Invariants -/

/-- Every step keeps the bounds of the inbound queues (R167), one notice per class (R170), one pending device HOLD per
scope (R173), STARTED at the front of the main queue until it is begun (R182), the slot request list free of repeats and
empty while a slot is free (R169; the served list is the model's choice, assumption 6), the authority table within 24
entries of distinct ids (R103), the account table with distinct ids and at most one reservation of a context in an entry
(R116, R117), the pass-over counts within 4 (R139) and the detail of LINK_FAULT equal to the last fault kind (R165). -/
def Obligations.QueueAndTableBoundsAreKept : Prop :=
  Invariant InboundBounded ∧ Invariant NoticesDistinct ∧ Invariant HoldsDistinct ∧ Invariant StartedFirst ∧
    Invariant RequestsSound ∧ Invariant AuthoritySound ∧ Invariant AccountsOrdered ∧ Invariant PassOversBounded ∧
    Invariant FaultDetailAgrees

/-- Every step keeps the main queue within its 24 slots (R168), each reserved slot being held for a lane in QUOTING.
The list of served claims is the model's choice (assumption 6). -/
def Obligations.MainQueueSlotsAreKept : Prop := Invariant SlotsWithin

/-- Every step keeps the line numbers of every basket consecutive, its lines at most 128 and its gross at most
99,999,999 (R24, R25). -/
def Obligations.LineListsAreKept : Prop := Invariant LinesSound

/-- Every step keeps lanes, contexts, streams and the park list in agreement (R12, R14, R148, R153). -/
def Obligations.BasketsAndLanesAgree : Prop := Invariant BasketsSound

/-- Every step keeps the claim table within 96 entries of distinct serials, and CLAIMS_FULL pending only while the
table is full of CLAIMED entries (R88, R90, R91). -/
def Obligations.ClaimTableIsKept : Prop := Invariant ClaimsSound

/-- Every step keeps the two banks in one of the pairs of R40 with the content their states call for, and a SERVING
device with a CURRENT bank and an open day (R40, R41, R58, R180). -/
def Obligations.BankTableIsKept : Prop := Invariant BanksSound

/-! ### Refusals and the first checks -/

/-- A lane request that is taken and answered with an outcome other than OK leaves every basket, lane state,
account, bank and table as it was (R7, R184): only the idle timer of its lane and the timer of the reservation of
its context restart (R5), and CLAIMS_FULL alone raises a condition (R95). -/
def Obligations.RefusedLaneRequestsChangeNothing : Prop :=
  ∀ (i : Instr) (k : Byte) (r : Req) (l : LaneNo) (s : State),
    i.kind? = some k → isLaneKind k = true → i.req? = some r → TakesLane s k r l →
    ∃ t, exec i s = .next t ∧
      ∀ (f : Frame) (o : Byte), t.mainQ.frames = s.mainQ.frames ++ [f] → f.kind = 0x80 + k →
        f.payload.head? = some o → o ≠ 0 →
        FrameTaken .pool (r.frame k) s t ∧ t.mainQ.reserved = s.mainQ.reserved ∧
        t.lanes = (touchIdle l s).lanes ∧ t.accounts = (touchReservation l s).accounts ∧ t.ctxs = s.ctxs ∧
        LaneFrame { s with conds := t.conds, notices := t.notices } t ∧
        (o = OutcomeCode.claimsFull.code →
          t.cond .claimsFull = { pending := true, detail := (s.cond .claimsFull).detail } ∧
          OtherConditionsKept s t .claimsFull ∧ t.notices = noticesAfter s .claimsFull s.notices) ∧
        (o ≠ OutcomeCode.claimsFull.code → t.conds = s.conds ∧ t.notices = s.notices)

/-- A bulk request that is taken and answered with an outcome other than OK changes nothing but its queue and its
reply (R184). -/
def Obligations.RefusedBulkRequestsChangeNothing : Prop :=
  ∀ (i : Instr) (k : Byte) (r : Req) (s : State),
    i.kind? = some k → isBulkKind k = true → i.req? = some r → r.lane = 0 → TakesBulk s (r.frame k) →
    ∃ t, exec i s = .next t ∧
      ∀ (o : Byte), (∃ f, t.mainQ.frames = s.mainQ.frames ++ [f] ∧ f.payload.head? = some o) → o ≠ 0 →
        FrameTaken .bulk (r.frame k) s t ∧ t.mainQ.reserved = s.mainQ.reserved ∧ BulkFrame s t

/-- The checks every request passes first. A lane request with LANE 0, a bulk request with LANE 1 to 8, and any
request on an OFF lane are answered BAD_LANE (R2, R6). On an IDLE lane only OPEN_BASKET and RECALL are carried out, on
an OPEN or TOTALLED lane every other lane request, FINALIZE on an OPEN lane apart; the rest are answered BAD_STATE
(R3). A payload of the wrong length is then answered BAD_FIELD at offset 0xFF, and so is a bulk request's, OFFER_PUT
and AUTHORITY_LOAD apart, whose lengths depend on their entries (R188). All without effect. -/
def Obligations.RequestsAreCheckedForLaneStateAndLength : Prop :=
  (∀ (i : Instr) (k : Byte) (r : Req) (s : State), i.kind? = some k → i.req? = some r →
      (isLaneKind k = true → r.lane = 0 → TakesBulk s (r.frame k) →
        ∃ t, exec i s = .next t ∧ BulkAnswered s t k r .badLane [] ∧ BulkFrame s t) ∧
      (∀ l, TakesLane s k r l →
        isBulkKind k = true ∨ (isLaneKind k = true ∧ (s.lane l).state = .off) →
        ∃ t, exec i s = .next t ∧ LaneAnswered s t k r .badLane (s.laneRevision l) [] ∧
          t.lanes = (touchIdle l s).lanes ∧ t.accounts = (touchReservation l s).accounts ∧
          t.ctxs = s.ctxs ∧ LaneFrame s t)) ∧
  (∀ (i : Instr) (k : Byte) (r : Req) (l : LaneNo) (s : State),
    i.kind? = some k → isLaneKind k = true → i.req? = some r → TakesLane s k r l →
    ((s.lane l).state = .idle → k ≠ 0x01 → k ≠ 0x12 → ∃ t, exec i s = .next t ∧
      LaneAnswered s t k r .badState (s.laneRevision l) [] ∧ t.lanes = s.lanes ∧ t.ctxs = s.ctxs ∧ LaneFrame s t) ∧
    ((s.lane l).state = .idle → k = 0x01 ∨ k = 0x12 → r.payload.length ≠ laneLength k → ∃ t, exec i s = .next t ∧
      LaneAnswered s t k r .badField (s.laneRevision l) [0, 255] ∧ t.lanes = s.lanes ∧ t.ctxs = s.ctxs ∧
      LaneFrame s t) ∧
    ((s.lane l).state = .opened ∨ (s.lane l).state = .totalled → k = 0x01 ∨ k = 0x12 → ∃ t, exec i s = .next t ∧
      LaneAnswered s t k r .badState (s.laneRevision l) [] ∧ t.lane l = watched s l ∧ OtherLanesKept s t l ∧
      t.ctxs = s.ctxs ∧ LaneFrame s t) ∧
    ((s.lane l).state = .totalled ∨ ((s.lane l).state = .opened ∧ k ≠ 0x0F) → k ≠ 0x01 → k ≠ 0x12 →
      r.payload.length ≠ laneLength k → ∃ t, exec i s = .next t ∧
      LaneAnswered s t k r .badField (s.laneRevision l) [0, 255] ∧ t.lane l = watched s l ∧ OtherLanesKept s t l ∧
      t.ctxs = s.ctxs ∧ LaneFrame s t)) ∧
  (∀ (i : Instr) (k : Byte) (r : Req) (s : State),
    i.kind? = some k → isBulkKind k = true → i.req? = some r → k ≠ 0x21 → k ≠ 0x26 → r.lane = 0 →
    TakesBulk s (r.frame k) → r.payload.length ≠ bulkLength k →
    ∃ t, exec i s = .next t ∧ BulkAnswered s t k r .badField [0, 255] ∧ BulkFrame s t)

/-! ### Opening, pricing and ending a basket (chapter 1) -/

/-- OPEN_BASKET on an IDLE lane (R16, R17, R18): in SERVING with a FREE context it takes the lowest one, moves its
incarnation, pins the CURRENT bank and opens the lane; in UNLOADED it is answered NOT_READY and without a FREE context
NO_CONTEXT, with no effect. That the reply repeats the revision is the model's reading (assumption 11). -/
def Obligations.OpenBasketAllocatesTheLowestFreeContext : Prop :=
  ∀ (s : State) (r : Req) (l : LaneNo), TakesLane s 0x01 r l → (s.lane l).state = .idle →
    r.payload = [] →
    (s.device.serving = false → ∃ t, exec (.openBasket r) s = .next t ∧
      LaneAnswered s t 0x01 r .notReady (s.laneRevision l) [] ∧ t.lanes = s.lanes ∧ t.ctxs = s.ctxs ∧
      t.accounts = (touchReservation l s).accounts ∧ LaneFrame s t) ∧
    (s.device.serving = true → (∀ c, (s.ctx c).place ≠ .free) → ∃ t, exec (.openBasket r) s = .next t ∧
      LaneAnswered s t 0x01 r .noContext (s.laneRevision l) [] ∧ t.lanes = s.lanes ∧ t.ctxs = s.ctxs ∧
      t.accounts = (touchReservation l s).accounts ∧ LaneFrame s t) ∧
    (∀ c b, s.device.serving = true → (s.ctx c).place = .free → (∀ d, d < c → (s.ctx d).place ≠ .free) →
      s.currentBank = some b →
      ∃ t, exec (.openBasket r) s = .next t ∧
        LaneAnswered s t 0x01 r .ok 0
          ([ctxByte c] ++ enc 2 ((s.ctx c).incarnation + 1).toNat ++ enc 2 0 ++ enc 2 (s.bank b).generation
            ++ enc 2 s.device.day ++ [(s.lane l).tracking.code]) ∧
        t.ctx c = { Context.initial with
          place := .attached { lane := l, tracking := (s.lane l).tracking, bank := b
                               generation := (s.bank b).generation, day := s.device.day }
          incarnation := (s.ctx c).incarnation + 1, inFlight := (s.ctx c).inFlight } ∧
        OtherContextsKept s t c ∧
        t.lane l = { watched s l with state := .opened, ctx := some c } ∧ OtherLanesKept s t l ∧
        t.bank b = { s.bank b with pins := (s.bank b).pins + 1 } ∧ (∀ d, d ≠ b → t.bank d = s.bank d) ∧
        t.accounts = (touchReservation l s).accounts ∧ LaneFrame { s with banks := t.banks } t)

/-- SET_TRACKING (R21): both modes take the given one; TRACKING wants a resolve for a context without a quote;
ON_DEMAND clears the want and the owed subtotal and takes the lane off the aged list. Revision, quote and lane
state stay. A mode above 1 is answered BAD_FIELD. -/
def Obligations.SetTrackingSetsBothModes : Prop :=
  ∀ (s : State) (r : Req) (l : LaneNo) (c : CtxNo) (a : Attachment),
    TakesLane s 0x0D r l → OnBasket s l c a → r.payload.length = 1 →
    (1 < field r.payload 0 1 → ∃ t, exec (.setTracking r) s = .next t ∧
      LaneAnswered s t 0x0D r .badField (s.ctx c).revision [0, 0] ∧ t.ctxs = s.ctxs ∧
      t.lane l = watched s l ∧ OtherLanesKept s t l ∧ t.accounts = accountsTouched s c ∧ LaneFrame s t) ∧
    (field r.payload 0 1 = 1 → ∃ t, exec (.setTracking r) s = .next t ∧
      LaneAnswered s t 0x0D r .ok (s.ctx c).revision [1] ∧
      t.ctx c = { s.ctx c with
        place := .attached { a with tracking := .tracking }
        wanted := (s.ctx c).wanted || (s.ctx c).quote.isNone } ∧
      t.lane l = { watched s l with tracking := .tracking } ∧
      OtherContextsKept s t c ∧ OtherLanesKept s t l ∧ t.accounts = accountsTouched s c ∧ LaneFrame s t) ∧
    (field r.payload 0 1 = 0 → ∃ t, exec (.setTracking r) s = .next t ∧
      LaneAnswered s t 0x0D r .ok (s.ctx c).revision [0] ∧
      t.ctx c = { s.ctx c with place := .attached { a with tracking := .onDemand }, wanted := false } ∧
      t.lane l = { watched s l with tracking := .onDemand, subtotalOwed := false, passOver := 0 } ∧
      OtherContextsKept s t c ∧ OtherLanesKept s t l ∧ t.accounts = accountsTouched s c ∧
      LaneFrame { s with sched := agedWithout s l } t)

/-- TOTAL (R8, R142): on a context with a quote the QUOTE is placed with the stored quote and the lane is TOTALLED;
without one no reply is placed, the slot stays reserved, a resolve is wanted and the lane is QUOTING with its idle
timer stopped. That the lane record keeps the tag is the model's choice (assumption 23). -/
def Obligations.TotalAnswersAtOnceOrWaits : Prop :=
  ∀ (s : State) (r : Req) (l : LaneNo) (c : CtxNo) (a : Attachment),
    TakesLane s 0x0E r l → OnBasket s l c a → r.payload = [] →
    (∀ q, (s.ctx c).quote = some q → ∃ t, exec (.total r) s = .next t ∧
      LaneAnswered s t 0x0E r .ok (s.ctx c).revision
        ([ctxByte c] ++ q.summary ++ q.applied.flatMap fun e => enc 2 e.offer ++ enc 4 e.saving) ∧
      t.ctxs = s.ctxs ∧ t.lane l = { watched s l with state := .totalled, subtotalOwed := false } ∧
      OtherLanesKept s t l ∧ t.accounts = accountsTouched s c ∧ LaneFrame s t) ∧
    ((s.ctx c).quote = none → ∃ t, exec (.total r) s = .next t ∧
      FrameTaken .pool (r.frame 0x0E) s t ∧ t.mainQ.frames = s.mainQ.frames ∧
      t.mainQ.reserved = s.mainQ.reserved + 1 ∧
      t.ctx c = { s.ctx c with wanted := true } ∧ OtherContextsKept s t c ∧
      t.lane l = { s.lane l with state := .quoting, idleStage := 0, idleTimer := none, quoteTag := r.tag } ∧
      OtherLanesKept s t l ∧ t.accounts = accountsTouched s c ∧ LaneFrame s t)

/-- QUERY_BASKET (R22): the reply carries the summary and up to 12 line entries from the first line on, and the basket
is as it was. A first line of 0 or above 128 is answered BAD_FIELD. That the reply repeats the revision, and the width
of its count, are the model's reading (assumptions 11 and 27). -/
def Obligations.QueryBasketReportsAndChangesNothing : Prop :=
  ∀ (s : State) (r : Req) (l : LaneNo) (c : CtxNo) (a : Attachment),
    TakesLane s 0x13 r l → OnBasket s l c a → r.payload.length = 1 →
    (1 ≤ field r.payload 0 1 ∧ field r.payload 0 1 ≤ 128 → ∃ t, exec (.queryBasket r) s = .next t ∧
      LaneAnswered s t 0x13 r .ok (s.ctx c).revision
        (let x := s.ctx c
         let ls := (x.lines.filter fun y => field r.payload 0 1 ≤ y.number).take 12
         [ctxByte c] ++ enc 2 x.incarnation.toNat ++ enc 2 x.revision.toNat ++ [a.tracking.code]
           ++ enc 2 a.day ++ enc 2 a.generation ++ enc 1 x.lines.length
           ++ enc 1 (x.lines.filter (!·.voided)).length ++ enc 1 x.coupons.length ++ enc 5 x.accountId
           ++ enc 4 (s.reserved c) ++ encFlag x.quote.isSome
           ++ enc 4 (match x.quote with | some q => q.payable | none => 0)
           ++ enc 2 ls.length ++ ls.flatMap fun y => enc 1 y.number ++ [y.flags] ++ enc 4 y.item ++ enc 2 y.qty
              ++ enc 4 y.unitPrice ++ enc 4 (x.reportedNet y)) ∧
      t.ctxs = s.ctxs ∧ t.lane l = watched s l ∧ OtherLanesKept s t l ∧ t.accounts = accountsTouched s c ∧
      LaneFrame s t) ∧
    (field r.payload 0 1 = 0 ∨ 128 < field r.payload 0 1 → ∃ t, exec (.queryBasket r) s = .next t ∧
      LaneAnswered s t 0x13 r .badField (s.ctx c).revision [0, 0] ∧
      t.ctxs = s.ctxs ∧ t.lane l = watched s l ∧ OtherLanesKept s t l ∧ t.accounts = accountsTouched s c ∧
      LaneFrame s t)

/-- VOID_BASKET (R19, R20, R53, R54, R116, R121): the claims the context owns go, its reservation and account
reference go, its pin is released, the context is freed at one more revision and the lane is IDLE. The revision 0 of
the reply is the model's reading (assumption 29). -/
def Obligations.VoidBasketGivesEverythingBack : Prop :=
  ∀ (s : State) (r : Req) (l : LaneNo) (c : CtxNo) (a : Attachment),
    TakesLane s 0x10 r l → OnBasket s l c a → r.payload = [] → AccountsOrdered s →
    ∃ t, exec (.voidBasket r) s = .next t ∧
      LaneAnswered s t 0x10 r .ok 0 ([ctxByte c] ++ enc 2 (s.ctx c).incarnation.toNat) ∧
      t.ctx c = { Context.initial with
        incarnation := (s.ctx c).incarnation, revision := (s.ctx c).revision + 1
        inFlight := (s.ctx c).inFlight } ∧
      OtherContextsKept s t c ∧
      t.lane l = vacated (s.lane l) ∧ OtherLanesKept s t l ∧
      ClaimsFreed s t c ∧ PinReleased s t a.bank ∧ (∀ j, t.account j = accountLeft s c (referredId s c) 0 j) ∧
      t.conds.mask = s.conds.mask ∧ (∀ d, d ≠ .bankDrained → d ≠ .claimsFull → t.cond d = s.cond d) ∧
      t.notices = drainNotices s a.bank ∧
      LaneFrame { s with claims := t.claims, banks := t.banks, conds := t.conds, notices := t.notices
                         sched := agedWithout s l } t

/-! ### Lines and overrides (chapters 2 and 6) -/

/-- ADD_LINE (R27, R28, R37): the first field out of range, in the order of R27, is answered BAD_FIELD and named. With
every field in range, room in the list and the gross within its limit, the line joins the end of the list under the
next line number, ACTIVE and without an override; a full list is answered FULL and a gross above the limit
TOTAL_LIMIT. That the lines held and the number 128 are one field of FULL is the model's reading (assumption 32). -/
def Obligations.AddLineAppendsALine : Prop :=
  ∀ (s : State) (r : Req) (l : LaneNo) (c : CtxNo) (a : Attachment) (checks : List (Bool × Nat)),
    TakesLane s 0x02 r l → OnBasket s l c a → r.payload.length = 16 →
    checks =
      [ (decide (1 ≤ field r.payload 0 4), 0), (decide (field r.payload 4 1 ≤ 63), 4),
        (decide (1 ≤ field r.payload 5 2 ∧ field r.payload 5 2 ≤ 9999), 5),
        (decide (field r.payload 7 4 ≤ 999999), 7), (decide (field r.payload 11 4 ≤ field r.payload 7 4), 11),
        (decide (field r.payload 15 1 ≤ 1), 15) ] →
    (∀ off, FirstFails checks off → ∃ t, exec (.addLine r) s = .next t ∧
      LaneAnswered s t 0x02 r .badField (s.ctx c).revision ([0] ++ enc 1 off)) ∧
    ((∀ x ∈ checks, x.1 = true) →
      ((s.ctx c).lines.length < 128 →
        grossOf (s.ctx c).lines + field r.payload 5 2 * field r.payload 7 4 ≤ 99999999 →
        ∃ t, exec (.addLine r) s = .next t ∧
          (let ln : Line :=
            { number := (s.ctx c).nextLine, item := field r.payload 0 4, dept := field r.payload 4 1
              noOffers := decide (field r.payload 15 1 = 1), qty := field r.payload 5 2
              list := field r.payload 7 4, floor := field r.payload 11 4, voided := false, override := none }
           BasketChanged s t 0x02 r l c
            (revised a { s.ctx c with lines := (s.ctx c).lines ++ [ln], nextLine := (s.ctx c).nextLine + 1 })
            (enc 1 (s.ctx c).nextLine ++ figuresOf ((s.ctx c).lines ++ [ln]))) ∧
          t.accounts = accountsTouched s c ∧ LaneFrame s t) ∧
      (128 ≤ (s.ctx c).lines.length → ∃ t, exec (.addLine r) s = .next t ∧
        LaneAnswered s t 0x02 r .full (s.ctx c).revision (enc 1 (s.ctx c).lines.length)) ∧
      ((s.ctx c).lines.length < 128 →
        99999999 < grossOf (s.ctx c).lines + field r.payload 5 2 * field r.payload 7 4 →
        ∃ t, exec (.addLine r) s = .next t ∧
          LaneAnswered s t 0x02 r .totalLimit (s.ctx c).revision (enc 4 (grossOf (s.ctx c).lines))))

/-- SET_QTY (R29, R30, R31, R111) on an ACTIVE line, in the order of its checks: a quantity outside 1 to 9,999 is
answered BAD_FIELD, a gross above its limit TOTAL_LIMIT with the gross as it stands, and for an overridden line whose
quantity rises a sum of the supervisor's reductions above the cap of the authority table (0 for a supervisor it does
not hold) LIMIT; else the quantity is replaced. -/
def Obligations.SetQtyReplacesTheQuantity : Prop :=
  ∀ (s : State) (r : Req) (l : LaneNo) (c : CtxNo) (a : Attachment) (ln : Line) (qty : Nat) (ls : List Line),
    TakesLane s 0x03 r l → OnBasket s l c a → r.payload.length = 3 → LinesLaw (s.ctx c) →
    ln ∈ (s.ctx c).lines → ln.voided = false → field r.payload 0 1 = ln.number → qty = field r.payload 1 2 →
    ls = editLine (s.ctx c) ln.number (fun y => { y with qty := qty }) →
    (qty = 0 ∨ 9999 < qty → ∃ t, exec (.setQty r) s = .next t ∧
      LaneAnswered s t 0x03 r .badField (s.ctx c).revision [0, 1]) ∧
    (1 ≤ qty → qty ≤ 9999 → 99999999 < grossOf ls → ∃ t, exec (.setQty r) s = .next t ∧
      LaneAnswered s t 0x03 r .totalLimit (s.ctx c).revision (enc 4 (grossOf (s.ctx c).lines))) ∧
    (1 ≤ qty → qty ≤ 9999 → grossOf ls ≤ 99999999 →
      (∀ o, ln.override = some o → ln.qty < qty → s.capOf o.supervisor < cumulative o.supervisor ls →
        ∃ t, exec (.setQty r) s = .next t ∧
          LaneAnswered s t 0x03 r .limit (s.ctx c).revision (enc 1 ln.number ++ enc 3 o.supervisor)) ∧
      ((∀ o, ln.override = some o → ln.qty < qty → cumulative o.supervisor ls ≤ s.capOf o.supervisor) →
        ∃ t, exec (.setQty r) s = .next t ∧
          BasketChanged s t 0x03 r l c (revised a { s.ctx c with lines := ls })
            (enc 1 ln.number ++ enc 2 qty ++ figuresOf ls) ∧
          t.accounts = accountsTouched s c ∧ LaneFrame s t))

/-- VOID_LINE marks an ACTIVE line VOIDED (R32) and CLEAR_OVERRIDE removes the override of an ACTIVE line, if it has
one (R110). Each of the four requests that name a line, SET_QTY and OVERRIDE with them, answers BAD_FIELD for a number
that names no line of the basket and BAD_STATE for a VOIDED line (R26, R29, R108). That a line's state is sent as its
flags is the model's reading (assumption 13). -/
def Obligations.NamedLinesAreEdited : Prop :=
  ∀ (s : State) (r : Req) (l : LaneNo) (c : CtxNo) (a : Attachment),
    OnBasket s l c a → LinesLaw (s.ctx c) →
    (∀ (i : Instr) (k : Byte), i.kind? = some k → i.req? = some r → k = 0x03 ∨ k = 0x04 ∨ k = 0x05 ∨ k = 0x06 →
      TakesLane s k r l → r.payload.length = laneLength k →
      ((∀ y ∈ (s.ctx c).lines, y.number ≠ field r.payload 0 1) → ∃ t, exec i s = .next t ∧
        LaneAnswered s t k r .badField (s.ctx c).revision [0, 0]) ∧
      (∀ ln ∈ (s.ctx c).lines, ln.number = field r.payload 0 1 → ln.voided = true → ∃ t, exec i s = .next t ∧
        LaneAnswered s t k r .badState (s.ctx c).revision (enc 1 ln.number ++ [ln.flags]))) ∧
    (∀ ln ∈ (s.ctx c).lines, ln.number = field r.payload 0 1 → ln.voided = false → r.payload.length = 1 →
      (TakesLane s 0x04 r l → ∃ t, exec (.voidLine r) s = .next t ∧
        (let ls := editLine (s.ctx c) ln.number fun y => { y with voided := true }
         BasketChanged s t 0x04 r l c (revised a { s.ctx c with lines := ls })
          (enc 1 ln.number ++ [Line.flags { ln with voided := true }] ++ figuresOf ls)) ∧
        t.accounts = accountsTouched s c ∧ LaneFrame s t) ∧
      (TakesLane s 0x06 r l → ∃ t, exec (.clearOverride r) s = .next t ∧
        (let ls := editLine (s.ctx c) ln.number fun y => { y with override := none }
         BasketChanged s t 0x06 r l c (revised a { s.ctx c with lines := ls })
          (enc 1 ln.number ++ enc 3 (match ln.override with | some o => o.supervisor | none => 0))) ∧
        t.accounts = accountsTouched s c ∧ LaneFrame s t))

/-- OVERRIDE (R107, R108, R109) on an ACTIVE line, in the order of its checks: a supervisor id of 0 or a price above
999,999 is answered BAD_FIELD, in that order (assumption 15), and a supervisor the table does not hold NO_AUTHORITY.
Within the list price, the line limit, the floor (level 3 apart) and the basket cap it sets the override; past one of
them it is answered OVER_LIST, LIMIT (LINE), BELOW_FLOOR or LIMIT (BASKET), the first that fails. The widths of basis
points, of the level and of LINE or BASKET are the model's reading (assumptions 14 and 33). -/
def Obligations.OverrideIsCheckedAgainstTheSupervisor : Prop :=
  ∀ (s : State) (r : Req) (l : LaneNo) (c : CtxNo) (a : Attachment) (ln : Line) (price sup : Nat),
    TakesLane s 0x05 r l → OnBasket s l c a → r.payload.length = 9 → LinesLaw (s.ctx c) →
    ln ∈ (s.ctx c).lines → ln.voided = false → field r.payload 0 1 = ln.number →
    price = field r.payload 1 4 → sup = field r.payload 5 3 →
    (∀ off, FirstFails [(decide (1 ≤ sup), 5), (decide (price ≤ 999999), 1)] off →
      ∃ t, exec (.override r) s = .next t ∧
        LaneAnswered s t 0x05 r .badField (s.ctx c).revision ([0] ++ enc 1 off)) ∧
    (1 ≤ sup → price ≤ 999999 →
      (s.supervisor sup = none → ∃ t, exec (.override r) s = .next t ∧
        LaneAnswered s t 0x05 r .noAuthority (s.ctx c).revision (enc 3 sup)) ∧
      ∀ (e : Supervisor) (bp sum : Nat) (ls : List Line),
        s.supervisor sup = some e → bp = (if ln.list = 0 then 0 else (ln.list - price) * 10000 / ln.list) →
        ls = editLine (s.ctx c) ln.number (fun y =>
          { y with override := some { price := price, supervisor := sup, reason := field r.payload 8 1 } }) →
        sum = cumulative sup ls →
        (price ≤ ln.list → bp ≤ e.lineLimit → (e.level = 3 ∨ ln.floor ≤ price) → sum ≤ e.basketCap →
          ∃ t, exec (.override r) s = .next t ∧
            BasketChanged s t 0x05 r l c (revised a { s.ctx c with lines := ls })
              (enc 1 ln.number ++ enc 4 price ++ enc 4 (ln.qty * (ln.list - price)) ++ enc 2 bp ++ enc 4 sum
                ++ enc 4 e.basketCap) ∧
            t.accounts = accountsTouched s c ∧ LaneFrame s t) ∧
        (ln.list < price → ∃ t, exec (.override r) s = .next t ∧
          LaneAnswered s t 0x05 r .overList (s.ctx c).revision (enc 4 ln.list)) ∧
        (price ≤ ln.list → e.lineLimit < bp → ∃ t, exec (.override r) s = .next t ∧
          LaneAnswered s t 0x05 r .limit (s.ctx c).revision ([1] ++ enc 2 bp ++ enc 2 e.lineLimit)) ∧
        (price ≤ ln.list → bp ≤ e.lineLimit → e.level ≠ 3 → price < ln.floor →
          ∃ t, exec (.override r) s = .next t ∧
            LaneAnswered s t 0x05 r .belowFloor (s.ctx c).revision (enc 4 ln.floor ++ enc 1 e.level)) ∧
        (price ≤ ln.list → bp ≤ e.lineLimit → (e.level = 3 ∨ ln.floor ≤ price) → e.basketCap < sum →
          ∃ t, exec (.override r) s = .next t ∧
            LaneAnswered s t 0x05 r .limit (s.ctx c).revision ([2] ++ enc 4 sum ++ enc 4 e.basketCap)))

/-! ### Coupons (chapter 5) -/

/-- PRESENT_COUPON's checks 1 to 8, in order (R93): a field out of range is answered BAD_FIELD and named, of a value
and a minimum spend both out of range the value (assumption 15); a list of 12 coupons, or for STORE_VALUE one with 4
of that kind, FULL; a serial or an OFFER_KEY offer the list already has DUPLICATE with the coupon's position; an offer
the pinned bank does not hold UNKNOWN_OFFER, and one whose window does not contain the store day OUT_OF_WINDOW. -/
def Obligations.PresentCouponChecksTheCoupon : Prop :=
  ∀ (s : State) (r : Req) (l : LaneNo) (c : CtxNo) (a : Attachment) (kind : Nat),
    TakesLane s 0x07 r l → OnBasket s l c a → r.payload.length = 17 → kind = field r.payload 6 1 →
    (∀ off, FirstFails
        [ (decide (kind = 1 ∨ kind = 2), 6), (decide (kind = 1 → 1 ≤ field r.payload 7 2), 7),
          (decide (kind = 2 → 1 ≤ field r.payload 9 4 ∧ field r.payload 9 4 ≤ 999999), 9),
          (decide (kind = 2 → field r.payload 13 4 ≤ 99999999), 13) ] off →
      ∃ t, exec (.presentCoupon r) s = .next t ∧
        LaneAnswered s t 0x07 r .badField (s.ctx c).revision ([0] ++ enc 1 off)) ∧
    ∀ (k : Coupon) (ks : List Coupon), PresentedCoupon r.payload k → ks = (s.ctx c).coupons →
      (¬ CouponRoom k ks → ∃ t, exec (.presentCoupon r) s = .next t ∧
        LaneAnswered s t 0x07 r .full (s.ctx c).revision (enc 1 ks.length ++ enc 1 (storeValues ks))) ∧
      (CouponRoom k ks →
        (∀ n y, k.serial ≠ 0 → ks[n]? = some y → y.serial = k.serial → (∀ z ∈ ks.take n, z.serial ≠ k.serial) →
          ∃ t, exec (.presentCoupon r) s = .next t ∧
            LaneAnswered s t 0x07 r .duplicate (s.ctx c).revision (enc 1 (n + 1))) ∧
        ((k.serial ≠ 0 → ∀ y ∈ ks, y.serial ≠ k.serial) → ∀ id, k.kind = .offerKey id →
          (∀ n y, ks[n]? = some y → y.kind = .offerKey id → (∀ z ∈ ks.take n, z.kind ≠ .offerKey id) →
            ∃ t, exec (.presentCoupon r) s = .next t ∧
              LaneAnswered s t 0x07 r .duplicate (s.ctx c).revision (enc 1 (n + 1))) ∧
          ((∀ y ∈ ks, y.kind ≠ .offerKey id) →
            ((s.bank a.bank).offer id = none → ∃ t, exec (.presentCoupon r) s = .next t ∧
              LaneAnswered s t 0x07 r .unknownOffer (s.ctx c).revision (enc 2 id ++ enc 2 a.generation)) ∧
            (∀ o, (s.bank a.bank).offer id = some o → a.day < o.firstDay ∨ o.lastDay < a.day →
              ∃ t, exec (.presentCoupon r) s = .next t ∧
                LaneAnswered s t 0x07 r .outOfWindow (s.ctx c).revision
                  (enc 2 id ++ enc 2 o.firstDay ++ enc 2 o.lastDay ++ enc 2 a.day)))))

/-- PRESENT_COUPON (R90, R91, R93, R94, R95): a coupon that passes checks 1 to 8 joins the end of the list, ACTIVE.
Serial 0 claims nothing; a serial without an entry is claimed at the end of the table, the first SPENT entry giving
way when the table is full; a table full of CLAIMED entries is answered CLAIMS_FULL, which raises that condition, and
a serial with an entry CLAIMED or SPENT, all without effect on the basket and the table. That the reply repeats the
revision, that an absent evicted serial and the lane of a PARKED owner are sent as 0, that the entries held and the
number 96 are one field of CLAIMS_FULL, and that CLAIMED sends the owner's state in one byte, are the model's reading
(assumptions 11, 12, 32 and 33). -/
def Obligations.PresentCouponClaimsTheSerial : Prop :=
  ∀ (s : State) (r : Req) (l : LaneNo) (c : CtxNo) (a : Attachment) (k : Coupon) (new : ClaimEntry),
    TakesLane s 0x07 r l → OnBasket s l c a → r.payload.length = 17 →
    PresentedCoupon r.payload k → CouponFits s a (s.ctx c) k →
    new = { serial := k.serial, state := .claimed c (s.ctx c).incarnation } →
    (k.serial = 0 ∨ (s.claim k.serial = none ∧ s.claims.length < 96) →
      ∃ t, exec (.presentCoupon r) s = .next t ∧
        (let ks := (s.ctx c).coupons ++ [k]
         BasketChanged s t 0x07 r l c (revised a { s.ctx c with coupons := ks })
          (enc 1 ks.length ++ enc 2 ((s.ctx c).revision + 1).toNat ++ enc 1 ks.length ++ enc 1 (storeValues ks)
            ++ [0] ++ enc 6 0)) ∧
        t.claims = (if k.serial = 0 then s.claims else s.claims ++ [new]) ∧ t.accounts = accountsTouched s c ∧
        LaneFrame { s with claims := t.claims } t) ∧
    (∀ old, k.serial ≠ 0 → s.claim k.serial = none → 96 ≤ s.claims.length → s.oldestSpent = some old →
      ∃ t, exec (.presentCoupon r) s = .next t ∧
        (let ks := (s.ctx c).coupons ++ [k]
         BasketChanged s t 0x07 r l c (revised a { s.ctx c with coupons := ks })
          (enc 1 ks.length ++ enc 2 ((s.ctx c).revision + 1).toNat ++ enc 1 ks.length ++ enc 1 (storeValues ks)
            ++ [1] ++ enc 6 old.serial)) ∧
        t.claims = s.claims.erase old ++ [new] ∧ t.accounts = accountsTouched s c ∧
        LaneFrame { s with claims := t.claims } t) ∧
    (k.serial ≠ 0 → s.claim k.serial = none → 96 ≤ s.claims.length → s.oldestSpent = none →
      ∃ t, exec (.presentCoupon r) s = .next t ∧
        LaneAnswered s t 0x07 r .claimsFull (s.ctx c).revision (enc 2 s.claims.length) ∧
        t.cond .claimsFull = { pending := true, detail := (s.cond .claimsFull).detail } ∧
        OtherConditionsKept s t .claimsFull ∧ t.notices = noticesAfter s .claimsFull s.notices ∧ t.ctxs = s.ctxs ∧
        t.lane l = watched s l ∧ OtherLanesKept s t l ∧ t.accounts = accountsTouched s c ∧
        LaneFrame { s with conds := t.conds, notices := t.notices } t) ∧
    (∀ owner inc, k.serial ≠ 0 → s.claim k.serial = some { serial := k.serial, state := .claimed owner inc } →
      ∃ t, exec (.presentCoupon r) s = .next t ∧
        LaneAnswered s t 0x07 r .claimed (s.ctx c).revision
          (match (s.ctx owner).place with
            | .attached b => [1, laneByte b.lane]
            | .parked _ => [2, 0]
            | .free => [0, 0]) ∧
        t.ctxs = s.ctxs ∧ LaneFrame s t) ∧
    (∀ day, k.serial ≠ 0 → s.claim k.serial = some { serial := k.serial, state := .spent day } →
      ∃ t, exec (.presentCoupon r) s = .next t ∧
        LaneAnswered s t 0x07 r .spent (s.ctx c).revision (enc 2 day) ∧ t.ctxs = s.ctxs ∧ LaneFrame s t)

/-- WITHDRAW_COUPON (R96, R97, R91): the coupon at the position given leaves the list, and with it the entry its
serial has for this context, which ends claim exhaustion; a position outside the list is answered BAD_FIELD. That the
reply repeats the revision is the model's reading (assumption 11). -/
def Obligations.WithdrawCouponReleasesTheSerial : Prop :=
  ∀ (s : State) (r : Req) (l : LaneNo) (c : CtxNo) (a : Attachment) (n : Nat),
    TakesLane s 0x08 r l → OnBasket s l c a → r.payload.length = 1 → n = field r.payload 0 1 →
    (∀ k, 1 ≤ n → (s.ctx c).coupons[n - 1]? = some k →
      ∃ t, exec (.withdrawCoupon r) s = .next t ∧
        (let ks := (s.ctx c).coupons.eraseIdx (n - 1)
         BasketChanged s t 0x08 r l c (revised a { s.ctx c with coupons := ks })
          (enc 1 n ++ [k.kind.code] ++ enc 6 k.serial ++ enc 2 ((s.ctx c).revision + 1).toNat ++ enc 1 ks.length
            ++ enc 1 (storeValues ks))) ∧
        (let mine (e : ClaimEntry) : Prop :=
          k.serial ≠ 0 ∧ e.serial = k.serial ∧ e.state = .claimed c (s.ctx c).incarnation
         t.claims = s.claims.filter (fun e => ¬ mine e) ∧
          ((∃ e ∈ s.claims, mine e) → t.cond .claimsFull = Cond.clear) ∧
          ((∀ e ∈ s.claims, ¬ mine e) → t.cond .claimsFull = s.cond .claimsFull)) ∧
        OtherConditionsKept s t .claimsFull ∧ t.accounts = accountsTouched s c ∧
        LaneFrame { s with claims := t.claims, conds := t.conds } t) ∧
    (n = 0 ∨ (s.ctx c).coupons.length < n → ∃ t, exec (.withdrawCoupon r) s = .next t ∧
      LaneAnswered s t 0x08 r .badField (s.ctx c).revision [0, 0] ∧ t.ctxs = s.ctxs ∧ t.lane l = watched s l ∧
      OtherLanesKept s t l ∧ t.accounts = accountsTouched s c ∧ LaneFrame s t)

/-! ### Accounts (chapter 7) -/

/-- ATTACH_ACCOUNT (R116, R119, R120, R127): the first field out of range is answered BAD_FIELD and named. Else the
context's reservation goes, its reference moves to the account given, whose entry takes the balance and, when it was
there already, the cut rule; the contexts cut move to a new revision and HOLD_CUT is raised for their lanes. What
counts as cut, and the width of that count, are the model's reading (assumptions 16 and 27). -/
def Obligations.AttachAccountMovesTheReference : Prop :=
  ∀ (s : State) (r : Req) (l : LaneNo) (c : CtxNo) (a : Attachment) (id balance : Nat) (ref : AccountRef)
    (checks : List (Bool × Nat)),
    TakesLane s 0x09 r l → OnBasket s l c a → AccountsOrdered s → r.payload.length = 11 →
    id = field r.payload 0 5 → balance = field r.payload 5 4 →
    checks =
      [ (decide (1 ≤ id ∧ id ≤ 1099511627775), 0), (decide (balance ≤ 99999999), 5),
        (decide (field r.payload 9 1 ≤ 3), 9), (decide (field r.payload 10 1 ≤ 1), 10) ] →
    ref = { id := id, tier := field r.payload 9 1, trade := decide (field r.payload 10 1 = 1) } →
    (∀ off, FirstFails checks off → ∃ t, exec (.attachAccount r) s = .next t ∧
      LaneAnswered s t 0x09 r .badField (s.ctx c).revision ([0] ++ enc 1 off)) ∧
    ((∀ x ∈ checks, x.1 = true) → s.account id = none → ∃ t, exec (.attachAccount r) s = .next t ∧
      BasketChanged s t 0x09 r l c (revised a { s.ctx c with account := some ref })
        (enc 5 id ++ enc 4 balance ++ enc 4 balance ++ [1] ++ [1] ++ enc 4 (s.reserved c) ++ enc 2 0) ∧
      t.account id = some { id := id, balance := balance, refs := 1, reservations := [] } ∧
      (∀ j, j ≠ id → t.account j = accountLeft s c (referredId s c) 0 j) ∧ LaneFrame s t) ∧
    (∀ e, (∀ x ∈ checks, x.1 = true) → s.account id = some e → ∃ t, exec (.attachAccount r) s = .next t ∧
      (let cut := cutContexts (withoutHold c e).reservations balance
       let held := cutHolds (withoutHold c e).reservations balance
       let refs := if referredId s c = some id then e.refs else e.refs + 1
       LaneAnswered s t 0x09 r .ok ((s.ctx c).revision + 1)
          (enc 5 id ++ enc 4 balance ++ enc 4 (balance - (held.map (·.points)).sum) ++ enc 1 refs ++ [0]
            ++ enc 4 (s.reserved c) ++ enc 2 cut.length) ∧
        t.ctx c = revised a { s.ctx c with account := some ref } ∧
        t.lane l = { watched s l with state := .opened, subtotalOwed := false } ∧
        CutsShown s t cut (some l) (some c) ∧
        t.account id = some { id := e.id, balance := balance, refs := refs, reservations := held } ∧
        (∀ j, j ≠ id → t.account j = accountLeft s c (referredId s c) 0 j) ∧
        LaneFrame { s with conds := t.conds, notices := t.notices } t))

/-- DETACH_ACCOUNT and CANCEL_REDEEM (R121, R124): with an account, the context's reservation goes, and for DETACH its
reference too; without one both are answered NO_ACCOUNT. -/
def Obligations.DetachAndCancelReleaseTheReservation : Prop :=
  ∀ (s : State) (r : Req) (l : LaneNo) (c : CtxNo) (a : Attachment),
    OnBasket s l c a → AccountsOrdered s → r.payload = [] →
    (∀ ref, TakesLane s 0x0A r l → (s.ctx c).account = some ref → ∃ t, exec (.detachAccount r) s = .next t ∧
      BasketChanged s t 0x0A r l c (revised a { s.ctx c with account := none })
        (enc 5 ref.id ++ enc 4 (s.reserved c) ++ encFlag (accountLeft s c (some ref.id) 0 ref.id).isNone) ∧
      (∀ j, t.account j = accountLeft s c (some ref.id) 0 j) ∧ LaneFrame s t) ∧
    (∀ ref, TakesLane s 0x0C r l → (s.ctx c).account = some ref → ∃ t, exec (.cancelRedeem r) s = .next t ∧
      BasketChanged s t 0x0C r l c (revised a (s.ctx c)) (enc 4 (s.reserved c)) ∧
      (∀ j, t.account j = accountLeft s c none 0 j) ∧ LaneFrame s t) ∧
    (TakesLane s 0x0A r l → (s.ctx c).account = none → ∃ t, exec (.detachAccount r) s = .next t ∧
      LaneAnswered s t 0x0A r .noAccount (s.ctx c).revision [] ∧ t.ctxs = s.ctxs ∧ t.lane l = watched s l ∧
      OtherLanesKept s t l ∧ t.accounts = accountsTouched s c ∧ LaneFrame s t) ∧
    (TakesLane s 0x0C r l → (s.ctx c).account = none → ∃ t, exec (.cancelRedeem r) s = .next t ∧
      LaneAnswered s t 0x0C r .noAccount (s.ctx c).revision [] ∧ t.ctxs = s.ctxs ∧ t.lane l = watched s l ∧
      OtherLanesKept s t l ∧ t.accounts = accountsTouched s c ∧ LaneFrame s t)

/-- REDEEM (R117, R122, R123): points between the schedule's minimum and what is available to the context are reserved
in its account entry as the youngest reservation, in place of the one it had; below the minimum it is answered
BELOW_MINIMUM, above what is available INSUFFICIENT, without an account NO_ACCOUNT, and for points outside 1 to
99,999,999 BAD_FIELD. -/
def Obligations.RedeemReservesPoints : Prop :=
  ∀ (s : State) (r : Req) (l : LaneNo) (c : CtxNo) (a : Attachment) (x : Schedule) (points : Nat),
    TakesLane s 0x0B r l → OnBasket s l c a → r.payload.length = 4 → points = field r.payload 0 4 →
    (s.bank a.bank).schedule = some x →
    (points = 0 ∨ 99999999 < points → ∃ t, exec (.redeem r) s = .next t ∧
      LaneAnswered s t 0x0B r .badField (s.ctx c).revision [0, 0]) ∧
    (∀ ref e, 1 ≤ points → points ≤ 99999999 → (s.ctx c).account = some ref → s.account ref.id = some e →
      (x.minimumRedemption ≤ points →
        points + ((withoutHold c e).reservations.map (·.points)).sum ≤ e.balance →
        ∃ t, exec (.redeem r) s = .next t ∧
          (let held := (withoutHold c e).reservations
           BasketChanged s t 0x0B r l c (revised a (s.ctx c))
            (enc 4 points ++ enc 4 (e.balance - (held.map (·.points)).sum - points) ++ enc 1 (held.length + 1)) ∧
           t.account ref.id = some { e with reservations := held ++
              [{ ctx := c, points := points, expires := s.now + s.config.reservationLifetime * 1000 }] }) ∧
          (∀ j, j ≠ ref.id → t.account j = accountLeft s c none 0 j) ∧ LaneFrame s t) ∧
      (points < x.minimumRedemption → ∃ t, exec (.redeem r) s = .next t ∧
        LaneAnswered s t 0x0B r .belowMinimum (s.ctx c).revision (enc 4 x.minimumRedemption) ∧
        t.ctxs = s.ctxs ∧ t.accounts = accountsTouched s c ∧ LaneFrame s t) ∧
      (x.minimumRedemption ≤ points →
        e.balance < points + ((withoutHold c e).reservations.map (·.points)).sum →
        ∃ t, exec (.redeem r) s = .next t ∧
          LaneAnswered s t 0x0B r .insufficient (s.ctx c).revision
            (enc 4 (e.balance - ((withoutHold c e).reservations.map (·.points)).sum)) ∧
          t.ctxs = s.ctxs ∧ t.accounts = accountsTouched s c ∧ LaneFrame s t)) ∧
    (1 ≤ points → points ≤ 99999999 → (s.ctx c).account = none → ∃ t, exec (.redeem r) s = .next t ∧
      LaneAnswered s t 0x0B r .noAccount (s.ctx c).revision [] ∧
      t.ctxs = s.ctxs ∧ t.accounts = accountsTouched s c ∧ LaneFrame s t)

/-- ACCOUNT_BALANCE (R127, R128): the entry takes the balance and the cut rule, the contexts cut move to a new
revision and HOLD_CUT is raised for their lanes; an account without an entry is answered UNKNOWN_ACCOUNT, and a field
out of range BAD_FIELD. What counts as reduced, and the widths of the counts, are the model's reading (assumptions 16
and 27). -/
def Obligations.AccountBalanceAppliesTheCutRule : Prop :=
  ∀ (s : State) (r : Req) (id balance : Nat),
    TakesBulk s (r.frame 0x29) → r.lane = 0 → AccountsOrdered s → r.payload.length = 9 →
    id = field r.payload 0 5 → balance = field r.payload 5 4 →
    (∀ off, FirstFails [(decide (1 ≤ id ∧ id ≤ 1099511627775), 0), (decide (balance ≤ 99999999), 5)] off →
      ∃ t, exec (.accountBalance r) s = .next t ∧ BulkAnswered s t 0x29 r .badField ([0] ++ enc 1 off) ∧
        BulkFrame s t) ∧
    (∀ e, 1 ≤ id → id ≤ 1099511627775 → balance ≤ 99999999 → s.account id = some e →
      ∃ t, exec (.accountBalance r) s = .next t ∧
      (let cut := cutContexts e.reservations balance
       let held := cutHolds e.reservations balance
       let sum := (held.map (·.points)).sum
       BulkAnswered s t 0x29 r .ok
          (enc 5 id ++ enc 4 balance ++ enc 4 sum ++ enc 2 cut.length
            ++ enc 2 (e.reservations.length - held.length) ++ enc 4 (balance - sum)) ∧
        t.account id = some { e with balance := balance, reservations := held } ∧
        (∀ j, j ≠ id → t.account j = s.account j) ∧ CutsShown s t cut none none ∧
        BulkFrame { s with lanes := t.lanes, ctxs := t.ctxs, accounts := t.accounts, conds := t.conds
                           notices := t.notices } t)) ∧
    (1 ≤ id → id ≤ 1099511627775 → balance ≤ 99999999 → s.account id = none →
      ∃ t, exec (.accountBalance r) s = .next t ∧
      BulkAnswered s t 0x29 r .unknownAccount [] ∧ BulkFrame s t)

/-- The cut rule (R127): when the balance covers the reservations nothing is cut; otherwise they are reduced from the
youngest on, the sum left is the balance, the older ones stay as they are, and at most the youngest of those left is
smaller than it was. That a removed reservation counts as reduced is the model's reading (assumption 16). -/
def Obligations.CutRuleTakesTheYoungestFirst : Prop :=
  ∀ (held : List Reservation) (balance : Nat),
    ((held.map (·.points)).sum ≤ balance → cutHolds held balance = held ∧ cutContexts held balance = []) ∧
    (balance < (held.map (·.points)).sum → (∀ d ∈ held, 1 ≤ d.points) →
      ((cutHolds held balance).map (·.points)).sum = balance ∧
      ∃ n, (cutHolds held balance).length ≤ n + 1 ∧ n < held.length ∧
        (cutHolds held balance).take n = held.take n ∧
        (cutContexts held balance).reverse = (held.drop n).map (·.ctx) ∧
        ∀ d, (cutHolds held balance)[n]? = some d →
          ∃ e, held[n]? = some e ∧ d = { e with points := d.points } ∧ 1 ≤ d.points ∧ d.points < e.points)

/-! ### Settlement and parking (chapter 9) -/

/-- FINALIZE (R99, R130, R147, R148, R149): on a TOTALLED lane the quote is settled: the context's claims become SPENT
on the store day, the balance of its account falls by the points used, reservation and reference go, the lane is
SETTLING and SETTLE_HEAD stands in the reserved slot with the stream record begun. On an OPEN lane it is answered
STALE_QUOTE. -/
def Obligations.FinalizeSettlesTheQuote : Prop :=
  ∀ (s : State) (r : Req) (l : LaneNo) (c : CtxNo) (a : Attachment),
    TakesLane s 0x0F r l → OnBasket s l c a → r.payload = [] →
    (∀ q, AccountsOrdered s → (s.ctx c).quote = some q → (s.lane l).state = .totalled →
      (∀ ref, (s.ctx c).account = some ref → s.account ref.id ≠ none) →
      ∃ t, exec (.finalize r) s = .next t ∧
        (let x := s.ctx c
         let lineFrames := max 1 ((x.lines.length + 11) / 12)
         let balance := match (referredId s c).bind s.account with
          | some e => e.balance - q.pointsUsed
          | none => 4294967295
         let head : List Byte := [1, 0, ctxByte c] ++ enc 2 a.day ++ enc 5 x.accountId ++ enc 4 balance
          ++ enc 1 x.lines.length ++ enc 1 x.coupons.length ++ enc 1 lineFrames ++ q.summary
         t.mainQ.frames = s.mainQ.frames ++ [{ kind := 0x63, lane := laneByte l, tag := r.tag, payload := head }] ∧
          t.stream l = some { ctx := c, tag := r.tag, lineFrames := lineFrames, placed := 1
                              crc := crc32Fold crc32Init head } ∧
          t.ctx c = { x with account := none
                             settledAccount := if x.account = none then x.settledAccount else referredId s c }) ∧
        t.mainQ.reserved = s.mainQ.reserved ∧ FrameTaken .pool (r.frame 0x0F) s t ∧
        (∀ m, m ≠ l → t.stream m = s.stream m) ∧ OtherContextsKept s t c ∧
        t.lane l = { s.lane l with state := .settling, subtotalOwed := false, idleStage := 0, idleTimer := none } ∧
        OtherLanesKept s t l ∧
        t.claims = s.claims.map (fun e =>
          if e.state = .claimed c (s.ctx c).incarnation then { e with state := .spent s.device.day } else e) ∧
        ((∃ e ∈ s.claims, e.state = .claimed c (s.ctx c).incarnation) → t.cond .claimsFull = Cond.clear) ∧
        ((∀ e ∈ s.claims, e.state ≠ .claimed c (s.ctx c).incarnation) →
          t.cond .claimsFull = s.cond .claimsFull) ∧
        OtherConditionsKept s t .claimsFull ∧
        ((s.ctx c).account ≠ none → ∀ j, t.account j = accountLeft s c (referredId s c) q.pointsUsed j) ∧
        ((s.ctx c).account = none → t.accounts = accountsTouched s c) ∧
        LaneFrame { s with claims := t.claims, conds := t.conds, streams := t.streams } t) ∧
    ((s.lane l).state = .opened → ∃ t, exec (.finalize r) s = .next t ∧
      LaneAnswered s t 0x0F r .staleQuote (s.ctx c).revision [] ∧ t.ctxs = s.ctxs ∧ t.lane l = watched s l ∧
      OtherLanesKept s t l ∧ t.accounts = accountsTouched s c ∧ LaneFrame s t)

/-- PARK (R153, R154): the basket is parked, and the reply carries the ticket, the context, its incarnation and
revision and the points released. The revision 0 after the outcome, and the basket's own among the fields, are the
model's reading (assumptions 11 and 29). -/
def Obligations.ParkKeepsTheBasketUnderATicket : Prop :=
  ∀ (s : State) (r : Req) (l : LaneNo) (c : CtxNo) (a : Attachment),
    TakesLane s 0x11 r l → OnBasket s l c a → r.payload = [] → BasketsSound s →
    ∃ t ticket, exec (.park r) s = .next t ∧ BasketParked s t l c a ticket ∧
      LaneAnswered s t 0x11 r .ok 0
        (enc 1 ticket ++ [ctxByte c] ++ enc 2 (s.ctx c).incarnation.toNat ++ enc 2 (t.ctx c).revision.toNat
          ++ enc 4 (s.reserved c)) ∧
      OtherConditionsKept s t .bankDrained ∧ t.notices = drainNotices s a.bank ∧
      LaneFrame { s with parks := t.parks, banks := t.banks, conds := t.conds, notices := t.notices
                         sched := t.sched } t

/-- RECALL (R98, R156, R157): on an IDLE lane in SERVING, the context parked under the ticket is attached to the lane
at one more revision, pinned to the CURRENT bank with the current store day, its OFFER_KEY coupons ACTIVE or DORMANT
against them; in UNLOADED it is answered NOT_READY, for ticket 0 BAD_FIELD and for one not in the park list
UNKNOWN_TICKET. That the reply repeats the revision is the model's reading (assumption 11). -/
def Obligations.RecallAttachesTheParkedBasket : Prop :=
  ∀ (s : State) (r : Req) (l : LaneNo) (ticket : Nat),
    TakesLane s 0x12 r l → (s.lane l).state = .idle → r.payload.length = 1 → ticket = field r.payload 0 1 →
    (∀ c b p, s.device.serving = true → 1 ≤ ticket →
      s.parks.list.find? (fun e => e.ticket = ticket) = some { ticket := ticket, ctx := c } →
      (s.ctx c).place = .parked p → s.currentBank = some b →
      ∃ t, exec (.recallBasket r) s = .next t ∧
        (let x := s.ctx c
         let a : Attachment := { lane := l, tracking := (s.lane l).tracking, bank := b
                                 generation := (s.bank b).generation, day := s.device.day }
         let status (k : Coupon) : Bool := match k.kind with
          | .storeValue _ _ => true
          | .offerKey id => match (s.bank b).offer id with
            | some o => decide (o.firstDay ≤ s.device.day ∧ s.device.day ≤ o.lastDay)
            | none => false
         let y := revised a { x with
          place := .attached a, coupons := x.coupons.map fun k => { k with active := status k } }
         t.ctx c = y ∧
          LaneAnswered s t 0x12 r .ok y.revision
            ([ctxByte c] ++ enc 2 x.incarnation.toNat ++ enc 2 y.revision.toNat ++ enc 2 (s.bank b).generation
              ++ enc 2 s.device.day ++ [(s.lane l).tracking.code] ++ enc 1 x.lines.length ++ enc 1 x.coupons.length
              ++ enc 1 (x.coupons.filter fun k => k.active && !status k).length
              ++ enc 1 (x.coupons.filter fun k => !k.active && status k).length ++ enc 5 x.accountId)) ∧
        OtherContextsKept s t c ∧ t.bank b = { s.bank b with pins := (s.bank b).pins + 1 } ∧
        (∀ d, d ≠ b → t.bank d = s.bank d) ∧
        t.parks = { s.parks with list := s.parks.list.filter fun e => e.ticket ≠ ticket } ∧
        t.lane l = { watched s l with state := .opened, ctx := some c, subtotalOwed := false } ∧
        OtherLanesKept s t l ∧ t.accounts = (touchReservation l s).accounts ∧
        LaneFrame { s with parks := t.parks, banks := t.banks } t) ∧
    (s.device.serving = false → ∃ t, exec (.recallBasket r) s = .next t ∧
      LaneAnswered s t 0x12 r .notReady (s.laneRevision l) [] ∧ t.ctxs = s.ctxs ∧ t.lanes = s.lanes ∧ LaneFrame s t) ∧
    (s.device.serving = true → ticket = 0 → ∃ t, exec (.recallBasket r) s = .next t ∧
      LaneAnswered s t 0x12 r .badField (s.laneRevision l) [0, 0] ∧ t.ctxs = s.ctxs ∧ t.lanes = s.lanes ∧
      LaneFrame s t) ∧
    (s.device.serving = true → 1 ≤ ticket → (∀ e ∈ s.parks.list, e.ticket ≠ ticket) →
      ∃ t, exec (.recallBasket r) s = .next t ∧
        LaneAnswered s t 0x12 r .unknownTicket (s.laneRevision l) [] ∧ t.ctxs = s.ctxs ∧ t.lanes = s.lanes ∧
        LaneFrame s t)

/-! ### Banks (chapter 3) -/

/-- BANK_BEGIN (R42): a generation of 1 or more begins the staging bank again, or else the lowest FREE bank; with
neither it is answered BANK_BUSY, and a generation of 0 BAD_FIELD. BANK_ABANDON (R51) frees the staging bank, and
without one is answered BAD_STATE. -/
def Obligations.BankBeginAndAbandonSetTheStagingBank : Prop :=
  ∀ (s : State) (r : Req), r.lane = 0 →
    (∀ b, TakesBulk s (r.frame 0x20) → r.payload.length = 2 → 1 ≤ field r.payload 0 2 →
      s.stagingBank = some b ∨
        (s.stagingBank = none ∧ (s.bank b).state = .free ∧ ∀ d, d < b → (s.bank d).state ≠ .free) →
      ∃ t, exec (.bankBegin r) s = .next t ∧
        BulkAnswered s t 0x20 r .ok (enc 1 b.val ++ enc 2 (field r.payload 0 2)) ∧
        t.bank b = { Bank.initial with state := .staging, generation := field r.payload 0 2 } ∧
        (∀ d, d ≠ b → t.bank d = s.bank d) ∧ BulkFrame { s with banks := t.banks } t) ∧
    (∀ b, TakesBulk s (r.frame 0x20) → r.payload.length = 2 → 1 ≤ field r.payload 0 2 → s.stagingBank = none →
      (∀ d, (s.bank d).state ≠ .free) → (s.bank b).state = .draining → (∀ d, d < b → (s.bank d).state ≠ .draining) →
      ∃ t, exec (.bankBegin r) s = .next t ∧
        BulkAnswered s t 0x20 r .bankBusy (enc 2 (s.bank b).generation ++ enc 1 (s.bank b).pins) ∧
        BulkFrame s t) ∧
    (TakesBulk s (r.frame 0x20) → r.payload.length = 2 → field r.payload 0 2 = 0 →
      ∃ t, exec (.bankBegin r) s = .next t ∧ BulkAnswered s t 0x20 r .badField [0, 0] ∧ BulkFrame s t) ∧
    (∀ b, TakesBulk s (r.frame 0x25) → r.payload = [] → s.stagingBank = some b →
      ∃ t, exec (.bankAbandon r) s = .next t ∧
        BulkAnswered s t 0x25 r .ok (enc 1 b.val ++ enc 2 (s.bank b).generation) ∧
        t.bank b = { Bank.initial with generation := (s.bank b).generation } ∧
        (∀ d, d ≠ b → t.bank d = s.bank d) ∧ BulkFrame { s with banks := t.banks } t) ∧
    (TakesBulk s (r.frame 0x25) → r.payload = [] → s.stagingBank = none →
      ∃ t, exec (.bankAbandon r) s = .next t ∧ BulkAnswered s t 0x25 r .badState [] ∧ BulkFrame s t)

/-- OFFER_PUT (R41, R44, R45): valid entries of distinct ids the staging bank does not hold, within its 384 offers,
join its section, which stays in increasing id order and is OPEN afterwards, the bank STAGING. Without a staging bank
it is answered BAD_STATE, with a count or length that is wrong BAD_FIELD; the first entry, in frame order, that is
invalid is answered BAD_FIELD and that repeats an id DUPLICATE, with its index; past 384 it is answered FULL. Where
one entry has several fields out of range the order of their offsets is the model's (assumption 28). -/
def Obligations.OfferPutInsertsInIdOrder : Prop :=
  ∀ (s : State) (r : Req), TakesBulk s (r.frame 0x21) → r.lane = 0 →
    (s.stagingBank = none → ∃ t, exec (.offerPut r) s = .next t ∧
      BulkAnswered s t 0x21 r .badState [] ∧ BulkFrame s t) ∧
    (∀ b, s.stagingBank = some b →
      field r.payload 0 1 = 0 ∨ 5 < field r.payload 0 1 ∨ r.payload.length ≠ 1 + field r.payload 0 1 * 32 →
      ∃ t, exec (.offerPut r) s = .next t ∧ BulkAnswered s t 0x21 r .badField [0, 255] ∧ BulkFrame s t) ∧
    ∀ (b : BankNo) (es : List (List Byte)), s.stagingBank = some b →
      1 ≤ field r.payload 0 1 → field r.payload 0 1 ≤ 5 → r.payload.length = 1 + field r.payload 0 1 * 32 →
      es = (List.range (field r.payload 0 1)).map (fun i => (r.payload.drop (1 + i * 32)).take 32) →
      (∀ (n : Nat) (e : List Byte), es[n]? = some e → (∀ x ∈ es.take n, firstBad (offerChecks x) = none) →
        ((es.take n).map fun x => field x 0 2).Nodup →
        (∀ x ∈ es.take n, ∀ o ∈ (s.bank b).offers, o.id ≠ field x 0 2) →
        (∀ off, FirstFails (offerChecks e) off → ∃ t, exec (.offerPut r) s = .next t ∧
          BulkAnswered s t 0x21 r .badField (enc 1 (n + 1) ++ enc 1 off) ∧ BulkFrame s t) ∧
        (firstBad (offerChecks e) = none →
          (∃ o ∈ (s.bank b).offers, o.id = field e 0 2) ∨ (∃ x ∈ es.take n, field x 0 2 = field e 0 2) →
          ∃ t, exec (.offerPut r) s = .next t ∧
            BulkAnswered s t 0x21 r .duplicate (enc 1 (n + 1) ++ enc 2 (field e 0 2)) ∧ BulkFrame s t)) ∧
      ((∀ e ∈ es, firstBad (offerChecks e) = none) →
        (es.map fun e => field e 0 2).Nodup → (∀ e ∈ es, ∀ o ∈ (s.bank b).offers, o.id ≠ field e 0 2) →
        (s.bank b).offers.Pairwise (fun o p => o.id < p.id) →
        ((s.bank b).offers.length + es.length ≤ 384 → ∃ t, exec (.offerPut r) s = .next t ∧
          BulkAnswered s t 0x21 r .ok (enc 2 ((s.bank b).offers.length + es.length) ++ [0, 1]) ∧
          t.bank b = { s.bank b with offers := (t.bank b).offers, closed := false, state := .staging } ∧
          (t.bank b).offers.Pairwise (fun o p => o.id < p.id) ∧
          (t.bank b).offers.Perm ((s.bank b).offers ++ es.map offerOf) ∧
          (∀ d, d ≠ b → t.bank d = s.bank d) ∧ BulkFrame { s with banks := t.banks } t) ∧
        (384 < (s.bank b).offers.length + es.length → ∃ t, exec (.offerPut r) s = .next t ∧
          BulkAnswered s t 0x21 r .full (enc 2 (s.bank b).offers.length) ∧ BulkFrame s t))

/-- OFFERS_CLOSE (R48): when the count and the CRC-32 over the record images agree the section is CLOSED, otherwise it
is answered MISMATCH with both. SCHEDULE_PUT (R46, R47): a schedule in range replaces the bank's; the first field out of
range is answered BAD_FIELD and named. Either leaves the bank READY when it is CLOSED with a schedule, else STAGING, and
is answered BAD_STATE without a staging bank (R41). -/
def Obligations.CloseAndScheduleMakeABankReady : Prop :=
  ∀ (s : State) (r : Req), r.lane = 0 →
   (s.stagingBank = none →
    (TakesBulk s (r.frame 0x22) → r.payload.length = 6 → ∃ t, exec (.offersClose r) s = .next t ∧
      BulkAnswered s t 0x22 r .badState [] ∧ BulkFrame s t) ∧
    (TakesBulk s (r.frame 0x23) → r.payload.length = 18 → ∃ t, exec (.schedulePut r) s = .next t ∧
      BulkAnswered s t 0x23 r .badState [] ∧ BulkFrame s t)) ∧
   ∀ (b : BankNo) (check : Nat) (checks : List (Bool × Nat)),
    s.stagingBank = some b → check = (crc32 ((s.bank b).offers.flatMap Offer.image)).toNat →
    checks =
      [ (decide (field r.payload 0 1 ≤ 100), 0), (decide (field r.payload 1 1 ≤ 100), 1),
        (decide (field r.payload 2 1 ≤ 100), 2), (decide (field r.payload 3 1 ≤ 100), 3),
        (decide (1 ≤ field r.payload 4 2 ∧ field r.payload 4 2 ≤ 10000), 4),
        (decide (field r.payload 6 4 ≤ 100000), 6) ] →
    (TakesBulk s (r.frame 0x22) → r.payload.length = 6 →
      (field r.payload 0 2 = (s.bank b).offers.length → field r.payload 2 4 = check →
        ∃ t, exec (.offersClose r) s = .next t ∧
          (let state : BankState := if (s.bank b).schedule = none then .staging else .ready
           t.bank b = { s.bank b with closed := true, state := state } ∧
            BulkAnswered s t 0x22 r .ok (enc 2 (s.bank b).offers.length ++ [state.code])) ∧
          (∀ d, d ≠ b → t.bank d = s.bank d) ∧ BulkFrame { s with banks := t.banks } t) ∧
      (field r.payload 0 2 ≠ (s.bank b).offers.length ∨ field r.payload 2 4 ≠ check →
        ∃ t, exec (.offersClose r) s = .next t ∧
          BulkAnswered s t 0x22 r .mismatch (enc 2 (s.bank b).offers.length ++ enc 4 check) ∧ BulkFrame s t)) ∧
    (∀ off, TakesBulk s (r.frame 0x23) → r.payload.length = 18 → FirstFails checks off →
      ∃ t, exec (.schedulePut r) s = .next t ∧ BulkAnswered s t 0x23 r .badField ([0] ++ enc 1 off) ∧
        BulkFrame s t) ∧
    (TakesBulk s (r.frame 0x23) → r.payload.length = 18 → (∀ x ∈ checks, x.1 = true) →
      ∃ t, exec (.schedulePut r) s = .next t ∧
        (let state : BankState := if (s.bank b).closed then .ready else .staging
         t.bank b = { s.bank b with
            state := state
            schedule := some
              { earn0 := field r.payload 0 1, earn1 := field r.payload 1 1, earn2 := field r.payload 2 1
                earn3 := field r.payload 3 1, redemptionRate := field r.payload 4 2
                minimumRedemption := field r.payload 6 4, excluded := BitVec.ofNat 64 (field r.payload 10 8) } } ∧
          BulkAnswered s t 0x23 r .ok [state.code]) ∧
        (∀ d, d ≠ b → t.bank d = s.bank d) ∧ BulkFrame { s with banks := t.banks } t)

/-- BANK_COMMIT (R49, R50, R58): the READY bank becomes CURRENT with no pins, when its generation is above that of the
CURRENT bank it replaces; that one becomes FREE without pins and DRAINING with them; an open store day makes the
device SERVING. Otherwise it is answered STALE_GENERATION, and without a READY bank NOT_READY. The zeros for an absent
former bank are the model's reading (assumption 12). -/
def Obligations.BankCommitReplacesTheCurrentBank : Prop :=
  ∀ (s : State) (r : Req), TakesBulk s (r.frame 0x24) → r.lane = 0 → r.payload = [] →
    (∀ b, (s.bank b).state = .ready → (∀ d, d ≠ b → (s.bank d).state ≠ .ready ∧ (s.bank d).state ≠ .current) →
      ∃ t, exec (.bankCommit r) s = .next t ∧
        BulkAnswered s t 0x24 r .ok (enc 1 b.val ++ enc 2 (s.bank b).generation ++ [0, 0, 0]) ∧
        t.bank b = { s.bank b with state := .current, pins := 0 } ∧ (∀ d, d ≠ b → t.bank d = s.bank d) ∧
        t.device = { s.device with serving := s.device.serving || decide (0 < s.device.day) } ∧
        BulkFrame { s with banks := t.banks, device := t.device } t) ∧
    (∀ b d, (s.bank b).state = .ready → (s.bank d).state = .current →
      ((s.bank d).generation < (s.bank b).generation →
        ∃ t, exec (.bankCommit r) s = .next t ∧
          t.bank b = { s.bank b with state := .current, pins := 0 } ∧
          t.bank d = (if (s.bank d).pins = 0 then { Bank.initial with generation := (s.bank d).generation }
            else { s.bank d with state := .draining }) ∧
          BulkAnswered s t 0x24 r .ok (enc 1 b.val ++ enc 2 (s.bank b).generation ++ enc 1 d.val
            ++ [if (s.bank d).pins = 0 then 0 else 4] ++ enc 1 (s.bank d).pins) ∧
          t.device = { s.device with serving := s.device.serving || decide (0 < s.device.day) } ∧
          BulkFrame { s with banks := t.banks, device := t.device } t) ∧
      ((s.bank b).generation ≤ (s.bank d).generation →
        ∃ t, exec (.bankCommit r) s = .next t ∧
          BulkAnswered s t 0x24 r .staleGeneration (enc 2 (s.bank d).generation) ∧ BulkFrame s t)) ∧
    (∀ b, s.stagingBank = some b → (∀ d, (s.bank d).state ≠ .ready) →
      ∃ t, exec (.bankCommit r) s = .next t ∧
        BulkAnswered s t 0x24 r .notReady
          [1, if (s.bank b).closed then 1 else 0, if (s.bank b).schedule.isSome then 1 else 0] ∧ BulkFrame s t) ∧
    (s.stagingBank = none → ∃ t, exec (.bankCommit r) s = .next t ∧
      BulkAnswered s t 0x24 r .notReady [0, 0, 0] ∧ BulkFrame s t)

/-! ### Authority table (chapter 6) -/

/-- AUTHORITY_LOAD (R104, R105) puts each valid entry of distinct ids in the table, in place of the entry of its id or
beside the others, up to 24, and past that is answered FULL; a count or length that is wrong is answered BAD_FIELD,
and the first entry, in frame order, that is invalid BAD_FIELD and that repeats an id DUPLICATE, with its index.
AUTHORITY_REMOVE and AUTHORITY_CLEAR (R106) take one entry, or all, out of it; NO_AUTHORITY answers a removal of an id
it does not hold, BAD_FIELD one of id 0. Which field of an entry is named where several are out of range, and the
widths of the counts, are the model's reading (assumptions 15 and 27). -/
def Obligations.AuthorityTableIsLoadedAndCleared : Prop :=
  ∀ (s : State) (r : Req), r.lane = 0 → AuthoritySound s →
    (TakesBulk s (r.frame 0x26) →
      field r.payload 0 1 = 0 ∨ 6 < field r.payload 0 1 ∨ r.payload.length ≠ 1 + field r.payload 0 1 * 10 →
      ∃ t, exec (.authorityLoad r) s = .next t ∧ BulkAnswered s t 0x26 r .badField [0, 255] ∧ BulkFrame s t) ∧
    (∀ (es : List (List Byte)) (n : Nat) (e : List Byte) (checks : List Byte → List (Bool × Nat)),
      checks = (fun x =>
        [ (decide (1 ≤ field x 0 3), 0), (decide (1 ≤ field x 3 1 ∧ field x 3 1 ≤ 3), 3),
          (decide (1 ≤ field x 4 2 ∧ field x 4 2 ≤ 10000), 4), (decide (field x 6 4 ≤ 99999999), 6) ]) →
      TakesBulk s (r.frame 0x26) → 1 ≤ field r.payload 0 1 → field r.payload 0 1 ≤ 6 →
      r.payload.length = 1 + field r.payload 0 1 * 10 →
      es = (List.range (field r.payload 0 1)).map (fun i => (r.payload.drop (1 + i * 10)).take 10) →
      es[n]? = some e → (∀ x ∈ es.take n, ∀ y ∈ checks x, y.1 = true) →
      ((es.take n).map fun x => field x 0 3).Nodup →
      (∀ off, FirstFails (checks e) off → ∃ t, exec (.authorityLoad r) s = .next t ∧
        BulkAnswered s t 0x26 r .badField (enc 1 (n + 1) ++ enc 1 off) ∧ BulkFrame s t) ∧
      ((∀ y ∈ checks e, y.1 = true) → (∃ x ∈ es.take n, field x 0 3 = field e 0 3) →
        ∃ t, exec (.authorityLoad r) s = .next t ∧
          BulkAnswered s t 0x26 r .duplicate (enc 1 (n + 1) ++ enc 3 (field e 0 3)) ∧ BulkFrame s t)) ∧
    (∀ es fresh, TakesBulk s (r.frame 0x26) → 1 ≤ field r.payload 0 1 → field r.payload 0 1 ≤ 6 →
      r.payload.length = 1 + field r.payload 0 1 * 10 →
      es = (List.range (field r.payload 0 1)).map (fun i => (r.payload.drop (1 + i * 10)).take 10) →
      (∀ e ∈ es, firstBad (supervisorChecks e) = none) → (es.map fun e => field e 0 3).Nodup →
      fresh = (es.filter fun e => (s.supervisor (field e 0 3)).isNone).length →
      (s.authority.length + fresh ≤ 24 → ∃ t, exec (.authorityLoad r) s = .next t ∧
        BulkAnswered s t 0x26 r .ok
          (enc 2 (s.authority.length + fresh) ++ enc 2 fresh ++ enc 2 (es.length - fresh)) ∧
        t.authority.length = s.authority.length + fresh ∧
        (∀ id, t.supervisor id = match es.find? (fun e => field e 0 3 = id) with
          | some e => some { id := id, level := field e 3 1, lineLimit := field e 4 2, basketCap := field e 6 4 }
          | none => s.supervisor id) ∧
        BulkFrame { s with authority := t.authority } t) ∧
      (24 < s.authority.length + fresh → ∃ t, exec (.authorityLoad r) s = .next t ∧
        BulkAnswered s t 0x26 r .full (enc 2 s.authority.length) ∧ BulkFrame s t)) ∧
    (∀ id, TakesBulk s (r.frame 0x27) → r.payload.length = 3 → id = field r.payload 0 3 → 1 ≤ id →
      (∀ e, s.supervisor id = some e → ∃ t, exec (.authorityRemove r) s = .next t ∧
        BulkAnswered s t 0x27 r .ok (enc 3 id ++ enc 2 (s.authority.length - 1)) ∧
        t.authority = s.authority.erase e ∧ BulkFrame { s with authority := t.authority } t) ∧
      (s.supervisor id = none → ∃ t, exec (.authorityRemove r) s = .next t ∧
        BulkAnswered s t 0x27 r .noAuthority (enc 3 id) ∧ BulkFrame s t)) ∧
    (TakesBulk s (r.frame 0x27) → r.payload.length = 3 → field r.payload 0 3 = 0 →
      ∃ t, exec (.authorityRemove r) s = .next t ∧ BulkAnswered s t 0x27 r .badField [0, 0] ∧ BulkFrame s t) ∧
    (TakesBulk s (r.frame 0x28) → r.payload = [] → ∃ t, exec (.authorityClear r) s = .next t ∧
      BulkAnswered s t 0x28 r .ok (enc 2 s.authority.length) ∧ t.authority = [] ∧
      BulkFrame { s with authority := [] } t)

/-! ### Reports (R102, R132, R181) -/

/-- QUERY_ACCOUNT (R132), QUERY_CLAIM (R102), IDENTIFY (R181) and STATUS (R181, R189) report and change nothing; an
account id out of range, a serial of 0 and a STATUS part other than 1 to 3 are answered BAD_FIELD. The silicon
revision of IDENTIFY is open (assumption 4). That STATUS counts its own take, and the widths of counts and of
states, are the model's reading (assumptions 20, 27 and 33). -/
def Obligations.QueriesReportAndChangeNothing : Prop :=
  ∀ (s : State) (r : Req), r.lane = 0 →
    (∀ e, TakesBulk s (r.frame 0x2A) → r.payload.length = 5 → 1 ≤ field r.payload 0 5 →
      field r.payload 0 5 ≤ 1099511627775 → s.account (field r.payload 0 5) = some e →
      ∃ t, exec (.queryAccount r) s = .next t ∧ BulkFrame s t ∧
        BulkAnswered s t 0x2A r .ok
          (enc 5 e.id ++ enc 4 e.balance ++ enc 4 e.sum ++ enc 4 (e.balance - e.sum) ++ enc 1 e.refs
            ++ (allCtxs.filter fun c => referredId s c = some e.id).flatMap (fun c =>
                [ctxByte c, (s.ctx c).stateCode, (s.ctx c).laneOrTicket])
            ++ enc 2 e.reservations.length
            ++ e.reservations.flatMap fun d =>
                [ctxByte d.ctx, laneByte? ((s.ctx d.ctx).attachment.map (·.lane))] ++ enc 4 d.points
                  ++ enc 2 ((d.expires - s.now) / 1000))) ∧
    (TakesBulk s (r.frame 0x2A) → r.payload.length = 5 → 1 ≤ field r.payload 0 5 →
      field r.payload 0 5 ≤ 1099511627775 → s.account (field r.payload 0 5) = none →
      ∃ t, exec (.queryAccount r) s = .next t ∧ BulkFrame s t ∧ BulkAnswered s t 0x2A r .unknownAccount []) ∧
    (TakesBulk s (r.frame 0x2A) → r.payload.length = 5 →
      field r.payload 0 5 = 0 ∨ 1099511627775 < field r.payload 0 5 →
      ∃ t, exec (.queryAccount r) s = .next t ∧ BulkFrame s t ∧ BulkAnswered s t 0x2A r .badField [0, 0]) ∧
    (TakesBulk s (r.frame 0x2B) → r.payload.length = 6 → field r.payload 0 6 = 0 →
      ∃ t, exec (.queryClaim r) s = .next t ∧ BulkFrame s t ∧ BulkAnswered s t 0x2B r .badField [0, 0]) ∧
    (∀ part, TakesBulk s (r.frame 0x31) → r.payload = [part] → part ≠ 1 → part ≠ 2 → part ≠ 3 →
      ∃ t, exec (.status r) s = .next t ∧ BulkFrame s t ∧ BulkAnswered s t 0x31 r .badField [0, 0]) ∧
    (TakesBulk s (r.frame 0x2B) → r.payload.length = 6 → 1 ≤ field r.payload 0 6 →
      ∃ t, exec (.queryClaim r) s = .next t ∧ BulkFrame s t ∧
        BulkAnswered s t 0x2B r .ok
          (enc 2 s.claims.length ++ enc 2 (s.claims.filter ClaimEntry.isSpent).length ++
            let place := enc 1 (s.claims.findIdx (fun e => e.serial = field r.payload 0 6) + 1)
            match s.claim (field r.payload 0 6) with
            | none => [0]
            | some { serial := _, state := .claimed c inc } =>
              [1] ++ place ++ [ctxByte c] ++ enc 2 inc.toNat ++ [(s.ctx c).stateCode, (s.ctx c).laneOrTicket]
            | some { serial := _, state := .spent day } => [2] ++ place ++ enc 2 day)) ∧
    (TakesBulk s (r.frame 0x30) → r.payload = [] → ∃ t, exec (.identify r) s = .next t ∧ BulkFrame s t ∧
      BulkAnswered s t 0x30 r .ok
        ([0x2C, 0x71, 0x04, 0x08, Config.siliconRevision, 0, 8, 0, 12, 0, 128, 0, 12, 1, 128, 0, 96, 0, 12, 0, 24, 0,
            24, 0, 8, 0, 24, 0, 240] ++ [s.device.bitRate.setWidth 8])) ∧
    (TakesBulk s (r.frame 0x31) → r.payload = [1] → ∃ t, exec (.status r) s = .next t ∧ BulkFrame s t ∧
      (let bank (b : BankNo) : List Byte :=
        enc 1 b.val ++ [(s.bank b).state.code] ++ enc 2 (s.bank b).generation ++ enc 1 (s.bank b).pins
          ++ enc 2 (s.bank b).offers.length ++ [if (s.bank b).closed then 1 else 0]
          ++ encFlag (s.bank b).schedule.isSome
       BulkAnswered s t 0x31 r .ok
        (encFlag s.device.serving ++ enc 2 s.device.day ++ bank 0 ++ bank 1 ++ enc 2 s.pendingSet
          ++ enc 2 s.conds.mask.toNat ++ enc 1 s.pool.frames.length ++ encFlag s.pool.congested
          ++ enc 1 t.bulk.frames.length ++ encFlag t.bulk.congested ++ enc 1 s.occupied
          ++ enc 1 (s.mainQ.reserved + 1) ++ enc 1 (24 - (s.occupied + (s.mainQ.reserved + 1)))
          ++ [s.link.hold.code] ++ enc 2 (match s.link.holdTimer with | some d => d - s.now | none => 0)
          ++ (match s.sched.flight with | some f => [1, laneByte f.lane, ctxByte f.ctx] | none => [0, 0, 0])
          ++ enc 2 s.claims.length ++ enc 2 (s.claims.filter ClaimEntry.isSpent).length
          ++ enc 2 s.accounts.length ++ enc 2 s.authority.length))) ∧
    (TakesBulk s (r.frame 0x31) → r.payload = [2] → ∃ t, exec (.status r) s = .next t ∧ BulkFrame s t ∧
      BulkAnswered s t 0x31 r .ok (allLanes.flatMap fun l =>
        [(s.lane l).state.code, (s.lane l).tracking.code, ctxByte? (s.lane l).ctx] ++ enc 1 (s.lane l).idleStage
          ++ encFlag (s.waiting l) ++ enc 1 (s.lane l).passOver
          ++ enc 1 (match s.stream l with | some st => st.placed | none => 0))) ∧
    (TakesBulk s (r.frame 0x31) → r.payload = [3] → BasketsSound s → ∃ t, exec (.status r) s = .next t ∧
      BulkFrame s t ∧ ∃ entries : List (List Byte),
        BulkAnswered s t 0x31 r .ok (enc 2 s.parks.list.length ++ entries.flatten) ∧
        entries.length = s.parks.list.length ∧
        ∀ (i : Nat) (e : ParkEntry) (p : Parking), s.parks.list[i]? = some e → (s.ctx e.ctx).place = .parked p →
          entries[i]? = some (enc 1 e.ticket ++ [ctxByte e.ctx] ++ enc 2 ((s.now - p.since) / 1000)
            ++ enc 2 ((p.expires - s.now) / 1000)))

/-! ### Configuration, store day, conditions (chapter 11) -/

/-- CONFIGURE (R2, R146, R179): while no lane holds a basket, a record whose fields are in range becomes the
configuration; every lane is IDLE or OFF by its enable bit with the default tracking mode, and no grant counts as the
previous one. While a lane holds a basket it is answered BUSY with the lanes that do; otherwise the first field out of
range, in the order of R179, is answered BAD_FIELD and named. Which offset a bad group code or order is named by is
the model's reading (assumption 19). -/
def Obligations.ConfigureReplacesTheConfiguration : Prop :=
  ∀ (s : State) (r : Req) (x : Configuration) (checks : List (Bool × Nat)),
    TakesBulk s (r.frame 0x2C) → r.lane = 0 → r.payload.length = 28 →
    checks =
      [ (decide (∀ i : Fin 8, field r.payload (1 + i.val) 1 ≤ 2), 1),
        (decide ((field r.payload 9 1 ≤ 2 ∧ field r.payload 10 1 ≤ 2 ∧ field r.payload 11 1 ≤ 2) ∧
          field r.payload 9 1 ≠ field r.payload 10 1 ∧ field r.payload 9 1 ≠ field r.payload 11 1 ∧
          field r.payload 10 1 ≠ field r.payload 11 1), 9),
        (decide (field r.payload 12 1 ≤ 8), 12), (decide (field r.payload 13 1 ≤ 1), 13),
        (decide (4 ≤ field r.payload 14 1 ∧ field r.payload 14 1 ≤ 23), 14),
        (decide (2 ≤ field r.payload 15 1 ∧ field r.payload 15 1 ≤ 7), 15),
        (decide (1 ≤ field r.payload 16 2), 16), (decide (field r.payload 18 2 < field r.payload 16 2), 18),
        (decide (field r.payload 20 1 ≤ 3), 20), (decide (field r.payload 21 1 ≤ 7), 21),
        (decide (10 ≤ field r.payload 22 2 ∧ field r.payload 22 2 ≤ 3600), 22),
        (decide (field r.payload 24 2 = 0 ∨ (10 ≤ field r.payload 24 2 ∧ field r.payload 24 2 ≤ 3600)), 24),
        (decide (60 ≤ field r.payload 26 2 ∧ field r.payload 26 2 ≤ 14400), 26) ] →
    (∀ off, (∀ l, (s.lane l).state.holdsBasket = false) → FirstFails checks off →
      ∃ t, exec (.configure r) s = .next t ∧ BulkAnswered s t 0x2C r .badField ([0] ++ enc 1 off) ∧ BulkFrame s t) ∧
    ((∀ l, (s.lane l).state.holdsBasket = false) → (∀ y ∈ checks, y.1 = true) →
      x = { enabled := BitVec.ofNat 8 (field r.payload 0 1)
            groups := Vector.ofFn fun l => groupOf (field r.payload (1 + l.val) 1)
            groupOrder := [groupOf (field r.payload 9 1), groupOf (field r.payload 10 1),
              groupOf (field r.payload 11 1)]
            priority := laneOf (BitVec.ofNat 8 (field r.payload 12 1))
            trackingDefault := if field r.payload 13 1 = 1 then .tracking else .onDemand
            poolWatermark := field r.payload 14 1, bulkWatermark := field r.payload 15 1
            holdTime := field r.payload 16 2, renewMargin := field r.payload 18 2
            renew := (field r.payload 20 1).testBit 0, release := (field r.payload 20 1).testBit 1
            holdThreshold := field r.payload 21 1, reservationLifetime := field r.payload 22 2
            idleTime := field r.payload 24 2, parkLifetime := field r.payload 26 2 } →
      ∃ t, exec (.configure r) s = .next t ∧ t.config = x ∧
        (∀ l, t.lane l = { s.lane l with
          state := if x.enabled.getLsbD l then .idle else .off, tracking := x.trackingDefault }) ∧
        t.sched = { s.sched with previous := .none } ∧
        BulkAnswered s t 0x2C r .ok (enc 2 (laneSetOf (allLanes.filter fun l => x.enabled.getLsbD l)).toNat) ∧
        BulkFrame { s with config := t.config, lanes := t.lanes, sched := t.sched } t) ∧
    ((∃ l, (s.lane l).state.holdsBasket = true) → ∃ t, exec (.configure r) s = .next t ∧
      BulkAnswered s t 0x2C r .busy
        (enc 2 (laneSetOf (allLanes.filter fun l => (s.lane l).state.holdsBasket)).toNat) ∧ BulkFrame s t)

/-- DAY_OPEN (R101, R180): while no lane holds a basket, a day after the store day becomes the store day and the SPENT
entries go; with a CURRENT bank the device is SERVING. While a lane holds a basket it is answered BUSY, and for a day
not after the store day BAD_FIELD. -/
def Obligations.DayOpenSetsTheDayAndDropsSpentClaims : Prop :=
  ∀ (s : State) (r : Req) (day : Nat),
    TakesBulk s (r.frame 0x2D) → r.lane = 0 → r.payload.length = 2 → day = field r.payload 0 2 →
    ((∀ l, (s.lane l).state.holdsBasket = false) → s.device.day < day →
      ∃ t, exec (.dayOpen r) s = .next t ∧
        BulkAnswered s t 0x2D r .ok (enc 2 day ++ enc 2 (s.claims.filter ClaimEntry.isSpent).length) ∧
        t.device = { s.device with day := day, serving := s.device.serving || s.currentBank.isSome } ∧
        t.claims = s.claims.filter (fun e => !e.isSpent) ∧
        t.cond .claimsFull = (if s.claims.any ClaimEntry.isSpent then Cond.clear else s.cond .claimsFull) ∧
        OtherConditionsKept s t .claimsFull ∧
        BulkFrame { s with device := t.device, claims := t.claims, conds := t.conds } t) ∧
    ((∃ l, (s.lane l).state.holdsBasket = true) → ∃ t, exec (.dayOpen r) s = .next t ∧
      BulkAnswered s t 0x2D r .busy [] ∧ BulkFrame s t) ∧
    ((∀ l, (s.lane l).state.holdsBasket = false) → day ≤ s.device.day → ∃ t, exec (.dayOpen r) s = .next t ∧
      BulkAnswered s t 0x2D r .badField [0, 0] ∧ BulkFrame s t)

/-- A raise of a condition (R176, R177): the class is pending with its detail updated, and a CONDITION notice is placed
at the end of the queue when it was not pending, is not masked and has none there; ATTN is low exactly while a
pending class is unmasked. CLEAR_CONDITIONS (R178) clears the classes named, CLAIMS_FULL apart, and with LINK_FAULT the
last fault kind; SET_MASK (R177, R178) replaces the mask and places a notice, in some order (assumption 5), for each
pending class it unmasks that has none in the queue. Both answer with the pending set and the mask set, and a set of a
class that does not exist with BAD_FIELD (R188). -/
def Obligations.ConditionsAreRaisedClearedAndMasked : Prop :=
  (∀ (c : CondClass) (u : Detail → Detail) (s : State),
      (raise c u s).cond c = { pending := true, detail := u (s.cond c).detail } ∧
      OtherConditionsKept s (raise c u s) c ∧
      (raise c u s).notices =
        (if (s.cond c).pending = false ∧ s.masked c = false ∧ c ∉ s.notices then s.notices ++ [c] else s.notices) ∧
      (s.attnLow = true ↔ ∃ d, (s.cond d).pending = true ∧ s.masked d = false) ∧
      raise c u s = { s with conds := (raise c u s).conds, notices := (raise c u s).notices }) ∧
  (∀ (s : State) (r : Req), r.lane = 0 → r.payload.length = 2 → 255 < field r.payload 0 2 →
    (TakesBulk s (r.frame 0x2E) → ∃ t, exec (.clearConditions r) s = .next t ∧
      BulkAnswered s t 0x2E r .badField [0, 0] ∧ BulkFrame s t) ∧
    (TakesBulk s (r.frame 0x2F) → ∃ t, exec (.setMask r) s = .next t ∧
      BulkAnswered s t 0x2F r .badField [0, 0] ∧ BulkFrame s t)) ∧
  ∀ (s : State) (r : Req) (set : Nat), r.lane = 0 → r.payload.length = 2 → set = field r.payload 0 2 → set ≤ 255 →
    (TakesBulk s (r.frame 0x2E) → ∃ t, exec (.clearConditions r) s = .next t ∧
      (∀ c, t.cond c = if c ≠ .claimsFull ∧ set.testBit c.index then Cond.clear else s.cond c) ∧
      t.conds.mask = s.conds.mask ∧
      t.link.lastFault = (if set.testBit 0 then .none else s.link.lastFault) ∧
      BulkAnswered s t 0x2E r .ok (enc 2 t.pendingSet ++ enc 2 s.conds.mask.toNat) ∧
      BulkFrame { s with conds := t.conds, link := { s.link with lastFault := t.link.lastFault } } t) ∧
    (TakesBulk s (r.frame 0x2F) → ∃ t new, exec (.setMask r) s = .next t ∧
      t.conds = { s.conds with mask := BitVec.ofNat 8 set } ∧
      t.notices = s.notices ++ new ∧
      new.Perm (allClasses.filter fun c =>
        (s.cond c).pending && s.masked c && !set.testBit c.index && !s.notices.contains c) ∧
      BulkAnswered s t 0x2F r .ok (enc 2 s.pendingSet ++ enc 2 set) ∧
      BulkFrame { s with conds := t.conds, notices := t.notices
                         draws := if 2 ≤ new.length then s.draws + 1 else s.draws } t)

/-! ### What holds of every request -/

/-- A command that the device does not make now leaves the state as it is (DESIGN CHOICE, assumption 2): a request
that is not the next one of its queue, an UNKNOWN_KIND_ANSWER for a frame that is not the next one of the bulk queue
or that a request's own chapter answers, and every command but HARD_RESET and RESETN_LOW while RESETn is low (R162).
On an empty queue a step is one millisecond of the time base and nothing else (DESIGN CHOICE, assumption 1). -/
def Obligations.CommandsNotMadeNowChangeNothing : Prop :=
  (∀ (i : Instr) (k : Byte) (r : Req) (s : State),
    i.kind? = some k → isLaneKind k = true ∨ isBulkKind k = true → i.req? = some r →
    (∀ l, ¬ TakesLane s k r l) → (r.lane = 0 → ¬ TakesBulk s (r.frame k)) → exec i s = .next s) ∧
  (∀ (f : Frame) (s : State),
    ¬ TakesBulk s f ∨ (isKnownKind f.kind = true ∧ f.kind ≠ 0x40 ∧ f.lane.toNat ≤ 8) →
    exec (.unknownKindAnswer f) s = .next s) ∧
  (∀ (i : Instr) (s : State), s.device.resetLow = true → (∀ x, i ≠ .hardReset x) → i ≠ .resetnLow →
    exec i s = .next s) ∧
  (∀ s : State, s.pending = [] → step s = .next { s with now := s.now + 1 })

/-! ### The link and its queues (chapter 10) -/

/-- A well-formed HOLD (R174): time 0 ends the output hold; another time starts it, FULL for a level at or below the
threshold and BULK above; a malformed one is an arrival like any other (R166). Its timer ends it at its expiry, and
not before. That an expiry may come late is the model's choice (assumption 8). -/
def Obligations.HoldsStartAndEnd : Prop :=
  ∀ (s : State), Live s →
    (∀ r : Req, r.payload.length = 3 → field r.payload 0 1 ≤ 7 → ∃ t, exec (.hold r) s = .next t ∧
      ClaimsSettled
        { s with link := { s.link with
            hold := if field r.payload 1 2 = 0 then .none
              else if field r.payload 0 1 ≤ s.config.holdThreshold then .full else .bulk
            holdTimer := if field r.payload 1 2 = 0 then none else some (s.now + field r.payload 1 2) } } t) ∧
    (∀ r : Req, ¬ (r.payload.length = 3 ∧ field r.payload 0 1 ≤ 7) → ∃ t, exec (.hold r) s = .next t ∧
      ClaimsSettled (arrive (r.frame 0x40) s) t) ∧
    (Due s s.link.holdTimer →
      exec .outputHoldExpiry s = .next { s with link := { s.link with hold := .none, holdTimer := none } }) ∧
    (¬ Due s s.link.holdTimer → exec .outputHoldExpiry s = .next s)

/-- An arrival that does not act at once (R166, R167, R172): a known request with LANE 1 to 8 goes to the lane pool,
any other frame to the bulk queue. With room it joins the end, and reaching the watermark in a CLEAR queue makes it
CONGESTED and a HOLD of the hold time pending, in place of a pending one of its scope or else last (R173); in a full
queue it is discarded and INBOUND_OVERRUN is raised. UNKNOWN_KIND_ANSWER: a frame of unknown KIND taken from the bulk
queue is answered BAD_KIND, one with a LANE above 8 BAD_LANE and a malformed HOLD BAD_FIELD, by a frame of kind 0xFE
that carries its KIND and LANE. The fields of that frame at BAD_FIELD are the model's reading (assumption 26). -/
def Obligations.ArrivalsAreStoredOrAnswered : Prop :=
  (∀ (f : Frame) (s : State) (q : QueueId), ¬ (f.kind = 0x40 ∧ holdWellFormed f.payload = true) →
    q = (if (isLaneKind f.kind ∨ isBulkKind f.kind) ∧ 1 ≤ f.lane.toNat ∧ f.lane.toNat ≤ 8 then .pool else .bulk) →
    (∀ room mark scope, (q = .pool ∧ room = 24 ∧ mark = s.config.poolWatermark ∧ scope = HoldScope.full) ∨
        (q = .bulk ∧ room = 8 ∧ mark = s.config.bulkWatermark ∧ scope = HoldScope.bulk) →
      ((s.inbound q).frames.length < room →
        (s.inbound q).congested = true ∨ (s.inbound q).frames.length + 1 < mark →
        arrive f s = s.setInbound q { s.inbound q with frames := (s.inbound q).frames ++ [f] }) ∧
      ((s.inbound q).frames.length < room →
        (s.inbound q).congested = false → mark ≤ (s.inbound q).frames.length + 1 →
        arrive f s = makeHold scope s.config.holdTime
          (s.setInbound q { s.inbound q with frames := (s.inbound q).frames ++ [f], congested := true })) ∧
      (room ≤ (s.inbound q).frames.length →
        arrive f s = raise .inboundOverrun
          (fun d => { d with lanes := d.lanes ||| (match q, laneOf f.lane with
            | .pool, some l => laneBit l
            | _, _ => 1) }) s))) ∧
  (∀ (scope : HoldScope) (time : Nat) (s : State), ∃ holds,
    makeHold scope time s = { s with link := { s.link with deviceHolds := holds } } ∧
    HoldJoins scope time s.link.deviceHolds holds) ∧
  (∀ (s : State) (f : Frame) (o : OutcomeCode), TakesBulk s f →
    (isKnownKind f.kind = false ∧ o = .badKind) ∨
      (isKnownKind f.kind = true ∧ 8 < f.lane.toNat ∧ o = .badLane) ∨
      (f.kind = 0x40 ∧ f.lane.toNat ≤ 8 ∧ o = .badField) →
    ∃ t, exec (.unknownKindAnswer f) s = .next t ∧ FrameTaken .bulk f s t ∧
      t.mainQ.reserved = s.mainQ.reserved ∧
      t.mainQ.frames = s.mainQ.frames ++
        [{ kind := 0xFE, lane := 0, tag := f.tag, payload := [o.code, f.kind, f.lane] }] ∧ BulkFrame s t)

/-- The receiver (R164, R165): bytes other than SOF are passed over in HUNT, a SOF begins a frame, a LEN above 240
ends it with a LENGTH fault, its last CRC byte ends it as an arrival or with a CRC fault, any other byte is gathered
and restarts the gap timer, and the expiry of that timer, more than 20 ms after the last byte, ends the frame with a
GAP fault. That the three byte rows share the receiver's meaning is the model's reading (assumption 10), that an
expiry may come late its choice (assumption 8). -/
def Obligations.ReceiverAssemblesFrames : Prop :=
  ∀ (s : State) (b : Byte) (i : Instr), Live s →
    i = .byteReceived b ∨ i = .frameComplete b ∨ i = .lengthFault b →
    (s.link.rx = .hunt → b ≠ 0x5A → ∃ t, exec i s = .next t ∧ ClaimsSettled s t) ∧
    (s.link.rx = .hunt → b = 0x5A → ∃ t, exec i s = .next t ∧
      ClaimsSettled { s with link := { s.link with rx := .assemble [], gap := some (s.now + 21) } } t) ∧
    (s.link.rx = .assemble [] → 240 < b.toNat → ∃ t, exec i s = .next t ∧
      ClaimsSettled (linkFault .length { s with link := { s.link with rx := .hunt, gap := none } }) t) ∧
    (s.link.rx = .assemble [] → b.toNat ≤ 240 → ∃ t, exec i s = .next t ∧
      ClaimsSettled { s with link := { s.link with rx := .assemble [b], gap := some (s.now + 21) } } t) ∧
    (∀ len got, s.link.rx = .assemble (len :: got) → got.length + 2 ≠ len.toNat + 6 → ∃ t, exec i s = .next t ∧
      ClaimsSettled
        { s with link := { s.link with rx := .assemble (len :: got ++ [b]), gap := some (s.now + 21) } } t) ∧
    (∀ len kind lane tag payload hi, s.link.rx = .assemble (len :: kind :: lane :: tag :: payload ++ [hi]) →
      payload.length = len.toNat → ∃ t, exec i s = .next t ∧
      ClaimsSettled
        (let u : State := { s with link := { s.link with rx := .hunt, gap := none } }
         if (crc16 (len :: kind :: lane :: tag :: payload)).toNat = hi.toNat * 256 + b.toNat then
          arrive { kind := kind, lane := lane, tag := tag, payload := payload } u
         else linkFault .crc u) t) ∧
    (Due s s.link.gap → exec .gapFault s =
      .next (linkFault .gap { s with link := { s.link with rx := .hunt, gap := none } })) ∧
    (¬ Due s s.link.gap → exec .gapFault s = .next s)

/-- A frame sent byte by byte to a receiver in HUNT is the arrival of that frame and nothing else: no bit of it is
dropped or changed between R163's layout and R164's receiver. -/
def Obligations.ReceivingAFrameDeliversIt : Prop :=
  ∀ (f : Frame) (s : State), f.payload.length ≤ 240 → s.link.rx = .hunt →
    (frameWire f).foldl (fun u b => receiveByte b u) s =
      arrive f { s with link := { s.link with rx := .hunt, gap := none } }

/-- TRANSMIT_START (R170, R171, R173, R182): from a reset on the line is high until STARTED, the front of the main
queue, is begun; a FULL output hold delays it. After that, at a frame boundary, the oldest pending device HOLD is
begun; without one, the main queue and the bulk notice queue take turns as far as they have a frame and the output
hold lets them, the main queue first; a notice takes its contents from the condition unit then. With nothing to send,
or no boundary, nothing happens. The lane 0 of a HOLD frame is the model's choice (assumption 18). -/
def Obligations.TransmitStartChoosesTheNextFrame : Prop :=
  ∀ (s : State), Live s →
    (AtBoundary s → s.link.lastSent = none → ∀ f fs, s.mainQ.frames = f :: fs → s.link.hold ≠ .full →
      exec .transmitStart s = .next { s with
        mainQ := { s.mainQ with frames := fs }
        link := { s.link with
          quietUntil := none, lastSent := some .main, tx := some { source := .main, frame := f } } }) ∧
    (AtBoundary s → s.link.lastSent ≠ none → ∀ h hs, s.link.deviceHolds = h :: hs →
      exec .transmitStart s = .next { s with link := { s.link with
        deviceHolds := hs, quietUntil := none
        tx := some { source := .deviceHold h
                     frame := { kind := 0x40, lane := 0, tag := 0
                                payload := (if h.scope = .full then 0 else 7) :: enc 2 h.time } } } }) ∧
    (AtBoundary s → s.link.lastSent ≠ none → s.link.deviceHolds = [] → ∀ f fs, s.mainQ.frames = f :: fs →
      s.link.hold ≠ .full → s.link.hold = .bulk ∨ s.notices = [] ∨ s.link.lastSent ≠ some .main →
      exec .transmitStart s = .next { s with
        mainQ := { s.mainQ with frames := fs }
        link := { s.link with
          quietUntil := none, lastSent := some .main, tx := some { source := .main, frame := f } } }) ∧
    (AtBoundary s → s.link.lastSent ≠ none → s.link.deviceHolds = [] → ∀ c cs, s.notices = c :: cs →
      s.link.hold = .none → s.mainQ.frames = [] ∨ s.link.lastSent = some .main →
      exec .transmitStart s = .next { s with link := { s.link with
        quietUntil := none, lastSent := some .notices
        tx := some
          { source := .notice c
            frame := { kind := 0x61, lane := 0, tag := 0
                       payload := [c.code] ++ encFlag (s.cond c).pending ++ enc 2 (s.cond c).detail.lanes.toNat
                        ++ enc 1 (s.cond c).detail.ticket ++ enc 2 (s.cond c).detail.generation
                        ++ [(s.cond c).detail.fault.code] } } } }) ∧
    (¬ AtBoundary s ∨ (s.link.lastSent = none ∧ (s.mainQ.frames = [] ∨ s.link.hold = .full)) ∨
        (s.link.deviceHolds = [] ∧ (s.mainQ.frames = [] ∨ s.link.hold = .full) ∧
          (s.notices = [] ∨ s.link.hold ≠ .none)) →
      exec .transmitStart s = .next s)

/-- TRANSMIT_END (R168, R169, R170, R173, R181): the frame's slot is free and served to the claim that waits longest,
or its notice has left the queue, or the HOLD has been sent and starts the renew timer of a CONGESTED queue with RENEW
set; the end of the RESTART reply makes the soft reset due. RENEW_EXPIRY (R173) makes a HOLD pending while the queue
is CONGESTED and RENEW is set. The order in which claims join the list is open (assumption 5) and a served slot is
kept until it is used (assumption 6). That an expiry may come late is the model's choice (assumption 8), and that every
HOLD of a nonzero time starts the timer its reading (assumption 34). -/
def Obligations.TransmitEndReleasesWhatWasSent : Prop :=
  ∀ (s : State), Live s →
    (∀ f, s.link.tx = some { source := .main, frame := f } → ∃ t, exec .transmitEnd s = .next t ∧
      ClaimsSettled { s with
        link := { s.link with tx := none }
        device := { s.device with restart :=
          if s.device.restart = .replying ∧ f.kind = 0xB2 ∧ f.payload = [0] then .due
          else s.device.restart } } t) ∧
    (∀ f c, s.link.tx = some { source := .notice c, frame := f } →
      exec .transmitEnd s = .next { s with link := { s.link with tx := none }, notices := s.notices.erase c }) ∧
    (∀ f h q, s.link.tx = some { source := .deviceHold h, frame := f } → q = h.scope.queue →
      ((s.inbound q).congested = true → s.config.renew = true → h.time ≠ 0 →
        exec .transmitEnd s = .next (State.setInbound { s with link := { s.link with tx := none } } q
          { s.inbound q with renew := some (s.now + (s.config.holdTime - s.config.renewMargin)) })) ∧
      ((s.inbound q).congested = false ∨ s.config.renew = false ∨ h.time = 0 →
        exec .transmitEnd s = .next { s with link := { s.link with tx := none } })) ∧
    (s.link.tx = none → exec .transmitEnd s = .next s) ∧
    (∀ q, Due s (s.inbound q).renew →
      ((s.inbound q).congested = true → s.config.renew = true →
        exec (.renewExpiry q) s = .next (makeHold (match q with | .pool => .full | .bulk => .bulk) s.config.holdTime
          (s.setInbound q { s.inbound q with renew := none }))) ∧
      ((s.inbound q).congested = false ∨ s.config.renew = false →
        exec (.renewExpiry q) s = .next (s.setInbound q { s.inbound q with renew := none }))) ∧
    (∀ q, ¬ Due s (s.inbound q).renew → exec (.renewExpiry q) s = .next s)

/-! ### Resolutions (chapter 8) -/

/-- RESOLVE_GRANT (R60, R137, R138, R139): with the unit IDLE, the lane R138 chooses is granted: its context is copied
into the snapshot and is in flight, the lanes passed over have their counts raised, and those that reach 4 join the
aged list in the normal order, which the granted lane leaves. With a resolution in flight or no lane waiting, nothing
happens. That a grant is not forced is the model's choice (assumption 1). -/
def Obligations.GrantTakesTheSnapshot : Prop :=
  ∀ (s : State), Live s →
    (∀ l c a, s.sched.flight = none → GrantGoesTo s l → (s.lane l).ctx = some c → (s.ctx c).place = .attached a →
      s.config.groupOrder.Perm [.a, .b, .c] → ∃ t, exec .resolveGrant s = .next t ∧
      (let x := s.ctx c
       let order := s.config.groupOrder.flatMap fun g => allLanes.filter fun m => s.laneGroup m = g
       let passed (m : LaneNo) : Bool := s.waiting m && m != l
       t.sched =
          { flight := some
              { lane := l, ctx := c
                snapshot :=
                  { ctx := c, incarnation := x.incarnation, revision := x.revision
                    lines := (x.lines.filter fun y => !y.voided).map fun y =>
                      { number := y.number, item := y.item, dept := y.dept, noOffers := y.noOffers, qty := y.qty
                        list := y.list, floor := y.floor, override := y.override.map (·.price) }
                    coupons := x.coupons.map fun k => { kind := k.kind, active := k.active }
                    account := x.account.map fun ref => { tier := ref.tier, trade := ref.trade }
                    reserved := s.reserved c, bank := a.bank, generation := a.generation, day := a.day } }
            previous := if s.config.priority = some l then .priority else .other
            aged := s.sched.aged.filter (fun m => m ≠ l) ++
              order.filter fun m => passed m && (s.lane m).passOver == 3 } ∧
        t.ctx c = { x with wanted := false, inFlight := true } ∧ OtherContextsKept s t c ∧
        t.lane l = { s.lane l with passOver := 0 } ∧
        (∀ m, passed m = true → t.lane m = { s.lane m with passOver := min 4 ((s.lane m).passOver + 1) }) ∧
        (∀ m, m ≠ l → s.waiting m = false → t.lane m = s.lane m) ∧
        t = { s with sched := t.sched, lanes := t.lanes, ctxs := t.ctxs })) ∧
    (s.sched.flight ≠ none ∨ (∀ l, s.waiting l = false) → exec .resolveGrant s = .next s)

/-- RESOLUTION_COMPLETE (R140 to R144, R158): the flight ends. For a context freed, reopened or parked meanwhile, or
at a new revision, the result is dropped, and a lane in QUOTING or TRACKING mode wants another. At a match the quote
is stored and delivered: as the QUOTE reply of a lane in QUOTING, which becomes TOTALLED; in TRACKING mode as a
SUBTOTAL that takes the place of one in the queue, or a free slot, or is owed. That the QUOTE's tag is the one the
lane record keeps of the TOTAL is the model's choice (assumption 23). -/
def Obligations.CompletionDeliversTheQuote : Prop :=
  ∀ (s : State), Live s →
    (s.sched.flight = none → exec .resolutionComplete s = .next s) ∧
    (∀ (f : Flight) (x : Context), s.sched.flight = some f → f.ctx = f.snapshot.ctx →
      x = { s.ctx f.ctx with inFlight := false } →
      ∃ t, exec .resolutionComplete s = .next t ∧ OtherContextsKept s t f.ctx ∧
        ((x.incarnation ≠ f.snapshot.incarnation ∨ ∀ a, x.place ≠ .attached a) →
          t.ctx f.ctx = x ∧ ClaimsSettled { s with sched := { s.sched with flight := none }, ctxs := t.ctxs } t) ∧
        (∀ a, x.place = .attached a → x.incarnation = f.snapshot.incarnation →
          (x.revision ≠ f.snapshot.revision →
            t.ctx f.ctx = { x with
              wanted := if (s.lane a.lane).state = .quoting ∨ a.tracking = .tracking then true else x.wanted } ∧
            ClaimsSettled { s with sched := { s.sched with flight := none }, ctxs := t.ctxs } t) ∧
          (x.revision = f.snapshot.revision → ∀ q,
            q = resolve (s.bank f.snapshot.bank).offers ((s.bank f.snapshot.bank).schedule.getD .zero) f.snapshot →
            t.ctx f.ctx = { x with quote := some q, wanted := false } ∧
            ((s.lane a.lane).state = .quoting →
              t.lane a.lane = { watched s a.lane with state := .totalled, subtotalOwed := false } ∧
              ClaimsSettled { s with
                sched := { s.sched with flight := none }, ctxs := t.ctxs, lanes := t.lanes
                mainQ := { s.mainQ with
                  reserved := s.mainQ.reserved - 1
                  frames := s.mainQ.frames ++
                    [{ kind := 0x8E, lane := laneByte a.lane, tag := (s.lane a.lane).quoteTag
                       payload := [0] ++ enc 2 x.revision.toNat ++ [ctxByte f.ctx] ++ q.summary
                        ++ q.applied.flatMap fun e => enc 2 e.offer ++ enc 4 e.saving }] } } t) ∧
            ((s.lane a.lane).state ≠ .quoting → a.tracking = .onDemand →
              ClaimsSettled { s with sched := { s.sched with flight := none }, ctxs := t.ctxs } t) ∧
            ((s.lane a.lane).state ≠ .quoting → a.tracking = .tracking →
              ((∃ g ∈ s.mainQ.frames, SubtotalOf a.lane f.ctx q.incarnation g) →
                ClaimsSettled { s with
                  sched := { s.sched with flight := none }, ctxs := t.ctxs
                  mainQ := { s.mainQ with frames := t.mainQ.frames } } t ∧
                t.mainQ.frames.length = s.mainQ.frames.length ∧
                ∀ (n : Nat) (g : Frame), s.mainQ.frames[n]? = some g →
                  (SubtotalOf a.lane f.ctx q.incarnation g → t.mainQ.frames[n]? = some
                    { kind := 0x60, lane := laneByte a.lane, tag := 0, payload := subtotalPayload f.ctx q }) ∧
                  (¬ SubtotalOf a.lane f.ctx q.incarnation g → t.mainQ.frames[n]? = some g)) ∧
              ((∀ g ∈ s.mainQ.frames, ¬ SubtotalOf a.lane f.ctx q.incarnation g) → 0 < s.freeSlots →
                t.lane a.lane = { s.lane a.lane with subtotalOwed := false } ∧
                ClaimsSettled { s with
                  sched := { s.sched with flight := none }, ctxs := t.ctxs, lanes := t.lanes
                  mainQ := { s.mainQ with frames := s.mainQ.frames ++
                    [{ kind := 0x60, lane := laneByte a.lane, tag := 0, payload := subtotalPayload f.ctx q }] } } t) ∧
              ((∀ g ∈ s.mainQ.frames, ¬ SubtotalOf a.lane f.ctx q.incarnation g) → s.freeSlots = 0 →
                t.lane a.lane = { s.lane a.lane with subtotalOwed := true } ∧
                ClaimsSettled { s with
                  sched := { s.sched with flight := none }, ctxs := t.ctxs, lanes := t.lanes } t)))) ∧
        ∀ m, (∀ a, x.place = .attached a → m ≠ a.lane) → t.lane m = s.lane m)

/-! ### Streams and timers (chapters 8 and 9) -/

/-- A SUBTOTAL owed and the frames of a settlement stream, their payloads written out, are placed when a slot is free
for them (R144, R149, R150, R189, R190); SETTLE_END releases the pin, frees the context and empties the lane (R151).
Without a slot, or with nothing to place, nothing happens. That a served claim uses its slot in a step of its own is
the model's choice (assumption 6). -/
def Obligations.StreamsArePlacedFrameByFrame : Prop :=
  ∀ (s : State) (l : LaneNo), Live s →
    (∀ c q, (s.lane l).subtotalOwed = true → (s.lane l).ctx = some c → (s.ctx c).quote = some q →
      s.slotFor (.owed l) = true → ∃ t, exec (.owedSubtotal l) s = .next t ∧
      t.mainQ.frames = s.mainQ.frames ++
        [{ kind := 0x60, lane := laneByte l, tag := 0, payload := subtotalPayload c q }] ∧
      t.lane l = { s.lane l with subtotalOwed := false } ∧ OtherLanesKept s t l ∧
      ClaimsSettled { s with
        mainQ := { s.mainQ with frames := t.mainQ.frames, served := s.mainQ.served.erase (.owed l) }
        lanes := t.lanes } t) ∧
    ((s.lane l).subtotalOwed = false ∨ s.slotFor (.owed l) = false → exec (.owedSubtotal l) s = .next s) ∧
    (∀ st q n, s.stream l = some st → (s.ctx st.ctx).quote = some q → st.placed ≠ st.lineFrames + 3 →
      n = st.placed + 1 → s.slotFor (.stream l) = true → ∃ t kind payload,
      exec (.settlementFrame l) s = .next t ∧
      (n ≤ st.lineFrames + 1 → kind = 0x64 ∧
        (let part := ((s.ctx st.ctx).lines.drop (12 * (n - 2))).take 12
         payload = enc 1 n ++ enc 1 part.length ++ part.flatMap fun y =>
          let x := (q.lines.find? fun z => z.line = y.number).getD
            { line := 0, net := 0, exclusive := 0, stackable := 0 }
          enc 1 y.number ++ [y.flags] ++ enc 2 y.qty
            ++ enc 4 (match y.override with | some o => o.price | none => y.list) ++ enc 4 x.net ++ enc 2 x.exclusive
            ++ enc 1 x.stackable ++ (match y.override with
              | some o => enc 3 o.supervisor ++ enc 1 o.reason
              | none => [0, 0, 0, 0]))) ∧
      (n = st.lineFrames + 2 → kind = 0x65 ∧
        payload = enc 1 n ++ enc 1 q.applied.length ++ enc 2 q.notListed ++
          q.applied.flatMap fun e => enc 2 e.offer ++ enc 1 e.lines ++ enc 4 e.saving) ∧
      (st.lineFrames + 2 < n → kind = 0x66 ∧
        payload = enc 1 n ++ enc 1 (s.ctx st.ctx).coupons.length ++
          (((s.ctx st.ctx).coupons.zip q.coupons).zipIdx 1).flatMap fun x =>
            enc 1 x.2 ++ ((match x.1.1.kind with | .offerKey _ => [1] | .storeValue _ _ => [2]) : List Byte)
              ++ enc 6 x.1.1.serial
              ++ ((match x.1.2 with
                | .applied amount => [1] ++ enc 4 amount
                | .notApplied => [2, 0, 0, 0, 0]
                | .dormant => [3, 0, 0, 0, 0]) : List Byte)) ∧
      t.mainQ.frames = s.mainQ.frames ++
        [{ kind := kind, lane := laneByte l, tag := st.tag, payload := payload }] ∧
      t.stream l = some { st with placed := n, crc := crc32Fold st.crc payload } ∧
      (∀ m, m ≠ l → t.stream m = s.stream m) ∧
      ClaimsSettled { s with
        mainQ := { s.mainQ with frames := t.mainQ.frames, served := s.mainQ.served.erase (.stream l) }
        streams := t.streams } t) ∧
    (s.stream l = none ∨ s.slotFor (.stream l) = false →
      exec (.settlementFrame l) s = .next s ∧ exec (.settleEnd l) s = .next s) ∧
    (∀ st, s.stream l = some st →
      (st.placed = st.lineFrames + 3 ∨ (s.ctx st.ctx).quote = none → exec (.settlementFrame l) s = .next s) ∧
      (st.placed ≠ st.lineFrames + 3 → exec (.settleEnd l) s = .next s)) ∧
    (∀ st a, s.stream l = some st → st.placed = st.lineFrames + 3 → (s.ctx st.ctx).place = .attached a →
      s.slotFor (.stream l) = true → ∃ t, exec (.settleEnd l) s = .next t ∧
      t.mainQ.frames = s.mainQ.frames ++
        [{ kind := 0x67, lane := laneByte l, tag := st.tag
           payload := enc 1 (st.placed + 1) ++ enc 1 st.placed ++ enc 4 (crc32Final st.crc).toNat }] ∧
      t.stream l = none ∧ (∀ m, m ≠ l → t.stream m = s.stream m) ∧
      t.ctx st.ctx = { Context.initial with
        incarnation := (s.ctx st.ctx).incarnation, revision := (s.ctx st.ctx).revision + 1
        inFlight := (s.ctx st.ctx).inFlight } ∧
      OtherContextsKept s t st.ctx ∧ t.lane l = vacated (s.lane l) ∧ OtherLanesKept s t l ∧ PinReleased s t a.bank ∧
      OtherConditionsKept s t .bankDrained ∧ t.notices = drainNotices s a.bank ∧
      ClaimsSettled { s with
        mainQ := { s.mainQ with frames := t.mainQ.frames, served := s.mainQ.served.erase (.stream l) }
        streams := t.streams, ctxs := t.ctxs, lanes := t.lanes
        banks := t.banks, conds := t.conds, notices := t.notices, sched := agedWithout s l } t)

/-- The expiries of the baskets' timers: a reservation goes and HOLD_EXPIRED is raised for its lane (R126); a parked
basket is abandoned with its claims and its account reference, and PARK_EXPIRED records its ticket (R155); an idle
lane is first warned of by LANE_IDLE (R159) and then parked, its ticket recorded (R160). Each raise places its notice,
a park that ends a drain that of BANK_DRAINED first (the order is the model's, assumption 31). A timer that has not
run out, or runs at the other stage, does nothing. That an expiry may come late is the model's choice (assumption 8). -/
def Obligations.BasketTimersExpire : Prop :=
  ∀ (s : State), Live s → BasketsSound s → AccountsOrdered s →
    (∀ c d a, s.reservation c = some d → d.expires ≤ s.now → (s.ctx c).place = .attached a →
      ∃ t, exec (.reservationExpiry c) s = .next t ∧
      t.ctx c = revised a (s.ctx c) ∧ OtherContextsKept s t c ∧
      t.lane a.lane = (s.lane a.lane).overtaken ∧ OtherLanesKept s t a.lane ∧
      (∀ j, t.account j = accountLeft s c none 0 j) ∧
      t.cond .holdExpired = { pending := true
                              detail := { (s.cond .holdExpired).detail with
                                lanes := (s.cond .holdExpired).detail.lanes ||| laneBit a.lane } } ∧
      OtherConditionsKept s t .holdExpired ∧ t.notices = noticesAfter s .holdExpired s.notices ∧
      ClaimsSettled { s with ctxs := t.ctxs, lanes := t.lanes, accounts := t.accounts, conds := t.conds
                             notices := t.notices } t) ∧
    (∀ c p, (s.ctx c).place = .parked p → p.expires ≤ s.now → ∃ t, exec (.parkExpiry c) s = .next t ∧
      ClaimsFreed s t c ∧
      (s.reservation c = none → ∀ j, t.account j = accountLeft s c (referredId s c) 0 j) ∧
      t.ctx c = { Context.initial with
        incarnation := (s.ctx c).incarnation, revision := (s.ctx c).revision + 1
        inFlight := (s.ctx c).inFlight } ∧
      OtherContextsKept s t c ∧
      t.parks = { s.parks with list := s.parks.list.filter fun e => e.ticket ≠ p.ticket } ∧
      t.cond .parkExpired = { pending := true, detail := { (s.cond .parkExpired).detail with ticket := p.ticket } } ∧
      t.conds.mask = s.conds.mask ∧ (∀ d, d ≠ .parkExpired → d ≠ .claimsFull → t.cond d = s.cond d) ∧
      t.notices = noticesAfter s .parkExpired s.notices ∧
      t = { s with ctxs := t.ctxs, parks := t.parks, claims := t.claims, accounts := t.accounts, conds := t.conds
                   notices := t.notices }) ∧
    (∀ l, (s.lane l).idleStage = 0 → Due s (s.lane l).idleTimer → ∃ t, exec (.idleWarning l) s = .next t ∧
      t.lane l = { s.lane l with
        idleStage := if s.config.idleTime = 0 then 0 else 1, idleTimer := idleStart s } ∧ OtherLanesKept s t l ∧
      t.cond .laneIdle = { pending := true
                           detail := { (s.cond .laneIdle).detail with
                            lanes := (s.cond .laneIdle).detail.lanes ||| laneBit l } } ∧
      OtherConditionsKept s t .laneIdle ∧ t.notices = noticesAfter s .laneIdle s.notices ∧
      t = { s with lanes := t.lanes, conds := t.conds, notices := t.notices }) ∧
    (∀ l c a, (s.lane l).idleStage = 1 → Due s (s.lane l).idleTimer → (s.lane l).ctx = some c →
      (s.ctx c).place = .attached a → ∃ t ticket, exec (.autoPark l) s = .next t ∧ BasketParked s t l c a ticket ∧
      t.cond .laneIdle = { pending := true
                           detail := { (s.cond .laneIdle).detail with
                            lanes := (s.cond .laneIdle).detail.lanes ||| laneBit l, ticket := ticket } } ∧
      t.conds.mask = s.conds.mask ∧ (∀ d, d ≠ .laneIdle → d ≠ .bankDrained → t.cond d = s.cond d) ∧
      t.notices = noticesAfter s .laneIdle (drainNotices s a.bank) ∧
      ClaimsSettled { s with ctxs := t.ctxs, lanes := t.lanes, accounts := t.accounts, conds := t.conds
                             notices := t.notices, banks := t.banks, parks := t.parks, sched := t.sched } t) ∧
    (∀ c, (∀ d, s.reservation c = some d → s.now < d.expires) → exec (.reservationExpiry c) s = .next s) ∧
    (∀ c, (∀ p, (s.ctx c).place = .parked p → s.now < p.expires) → exec (.parkExpiry c) s = .next s) ∧
    (∀ l, ¬ Due s (s.lane l).idleTimer ∨ (s.lane l).idleStage ≠ 0 → exec (.idleWarning l) s = .next s) ∧
    (∀ l, ¬ Due s (s.lane l).idleTimer ∨ (s.lane l).idleStage ≠ 1 → exec (.autoPark l) s = .next s)

/-! ### Restart and resets (R162, R181, R182) -/

/-- RESTART is answered OK and nothing is taken after it (R181); the soft reset that follows keeps the configuration,
the mask and the authority table, and a hard reset nothing (R182). The STARTED notice reports the cause and the bit
rate read from the straps. The model's command queue, time base and count of open choices go on (assumptions 5 and 7).
What the blocks hold while RESETn is low is the model's choice (assumption 9). -/
def Obligations.ResetsLeaveTheStatedValues : Prop :=
  ∀ (s : State),
    (∀ r : Req, TakesBulk s (r.frame 0x32) → r.lane = 0 → r.payload = [] → ∃ t, exec (.restart r) s = .next t ∧
      BulkAnswered s t 0x32 r .ok [] ∧ t.device = { s.device with restart := .replying } ∧
      BulkFrame { s with device := t.device } t) ∧
    (∀ k r l, s.device.restart ≠ .none → ¬ TakesLane s k r l ∧ ¬ TakesBulk s (r.frame k)) ∧
    (∀ straps, exec (.hardReset straps) s = .next { State.reset with
      pending := s.pending, now := s.now, draws := s.draws
      link := { State.reset.link with
        quietUntil := if s.link.tx = none then s.link.quietUntil else some (s.now + 20) }
      mainQ := { State.reset.mainQ with frames :=
        [{ kind := 0x62, lane := 0, tag := 0
           payload := [if s.device.resetLow then 2 else 1, straps.setWidth 8] }] }
      device := { State.reset.device with bitRate := straps } }) ∧
    (exec .resetnLow s = .next { State.reset with
      pending := s.pending, now := s.now, draws := s.draws
      link := { State.reset.link with
        quietUntil := if s.link.tx = none then s.link.quietUntil else some (s.now + 20) }
      mainQ := { State.reset.mainQ with frames := [] }
      device := { State.reset.device with bitRate := s.device.bitRate, resetLow := true } }) ∧
    (∀ straps, Live s → s.device.restart = .due → exec (.softReset straps) s = .next { State.reset with
      pending := s.pending, now := s.now, draws := s.draws
      link := { State.reset.link with
        quietUntil := if s.link.tx = none then s.link.quietUntil else some (s.now + 20) }
      mainQ := { State.reset.mainQ with frames :=
        [{ kind := 0x62, lane := 0, tag := 0, payload := [3, straps.setWidth 8] }] }
      lanes := Vector.ofFn fun l => { Lane.initial with
        state := if s.config.enabled.getLsbD l then .idle else .off, tracking := s.config.trackingDefault }
      config := s.config, authority := s.authority
      conds := { State.reset.conds with mask := s.conds.mask }
      device := { State.reset.device with bitRate := straps } }) ∧
    (∀ straps, Live s → s.device.restart ≠ .due → exec (.softReset straps) s = .next s)

/-! ### Quotes (chapter 4) -/

/-- The payable equals the gross less the override reduction, the line savings, the basket saving, the coupon value and
the redemption (R80), and a line without an override has a net between quantity times floor price and quantity times
list price (R70, R71, R72), for a snapshot whose override and floor prices do not exceed the list prices (R27,
R108). -/
def Obligations.PayableIsGrossLessTheReductions : Prop :=
  ∀ (offers : List Offer) (x : Schedule) (q : Snapshot) (v : Quote), v = resolve offers x q →
    (∀ l ∈ q.lines, l.floor ≤ l.list ∧ ∀ p, l.override = some p → p ≤ l.list) →
    v.payable + v.overrideReduction + v.lineSavings + v.basketSaving + v.couponValue + v.redemption = v.gross ∧
    v.gross = (q.lines.map fun l => l.qty * l.list).sum ∧
    v.lines.length = q.lines.length ∧ v.coupons.length = q.coupons.length ∧ v.applied.length ≤ 32 ∧
    ∀ (n : Nat) (l : SnapLine), q.lines[n]? = some l → ∃ y, v.lines[n]? = some y ∧ y.line = l.number ∧
      (∀ p, l.override = some p → y.net = l.qty * p) ∧
      (l.override = none → l.noOffers = true → y.net = l.qty * l.list) ∧
      (l.override = none → l.qty * l.floor ≤ y.net ∧ y.net ≤ l.qty * l.list)

/-- Which offers apply (R62, R63): those of the bank the snapshot names whose window holds the snapshot's store day and
whose gate is met. An offer that is not applicable takes no part in the quote: without it the quote is the same. A
coupon's result reports whether its offer applied, whatever the offer's gate. -/
def Obligations.OnlyApplicableOffersTakePart : Prop :=
  ∀ (s : State) (q : Snapshot) (v : Quote),
    v = s.quoteOf q →
    v = resolve ((s.bank q.bank).offers.filter q.applicable) ((s.bank q.bank).schedule.getD .zero) q ∧
    (∀ o, q.applicable o = true ↔
      o.firstDay ≤ q.day ∧ q.day ≤ o.lastDay ∧
        (match o.gate with
          | .none => True
          | .coupon => ∃ k ∈ q.coupons, k.active = true ∧ k.kind = .offerKey o.id
          | .tierMin tier => ∃ x, q.account = some x ∧ tier ≤ x.tier
          | .trade => ∃ x, q.account = some x ∧ x.trade = true)) ∧
    (∀ e ∈ v.applied, ∃ o ∈ (s.bank q.bank).offers, o.id = e.offer ∧ q.applicable o = true) ∧
    ((s.bank q.bank).offers.Pairwise (fun o p => o.id < p.id) →
      ∀ (n id : Nat), q.coupons[n]? = some { kind := .offerKey id, active := true } →
        (∀ e ∈ v.applied, e.offer = id → v.coupons[n]? = some (.applied e.saving)) ∧
        (v.notListed = 0 → (∀ e ∈ v.applied, e.offer ≠ id) → v.coupons[n]? = some .notApplied))

/-- The line offers of a quote (R66 to R72, R81): the lines are priced in order, each with the uses of offers on the
lines before it; per line the best exclusive candidate by its saving, the QTY_BREAK selected for the item among them,
then the stackable ones in rank order, all within unit limits and the line's floor. The line results and the line
savings are those, and each listed line offer reports its uses and their total. -/
def Obligations.LineOffersArePricedLineByLine : Prop :=
  ∀ (offers os : List Offer) (x : Schedule) (q : Snapshot) (v : Quote),
    offers.Pairwise (fun o p => o.id < p.id) → os = offers.filter q.applicable → v = resolve offers x q →
    v.applied.Pairwise (fun e f => e.offer < f.offer) ∧ (v.applied.length < 32 → v.notListed = 0) ∧
    ∃ priced : List PricedLine, priced.length = q.lines.length ∧ v.lines = priced.map (·.result) ∧
      v.lineSavings = ((priced.flatMap (·.uses)).map (·.saving)).sum ∧
      (∀ (n : Nat) (l : SnapLine) (y : PricedLine), q.lines[n]? = some l → priced[n]? = some y →
        LinePriced os q.lines ((priced.take n).flatMap (·.uses)) l y) ∧
      ∀ o ∈ os, PerLine o ∨ o.kind = .qtyBreak → ∀ us, us = (priced.flatMap (·.uses)).filter (fun u => u.offer = o.id) →
        (us ≠ [] → v.notListed = 0 →
          { offer := o.id, lines := us.length, saving := (us.map (·.saving)).sum } ∈ v.applied) ∧
        ∀ e ∈ v.applied, e.offer = o.id → us ≠ [] ∧ e.lines = us.length ∧ e.saving = (us.map (·.saving)).sum

/-- The spend offers of a quote (R73, R74, R81): of those that qualify by the nets of the lines, the best exclusive
one and every stackable one are taken in rank order, within the sum of all nets; each that gives anything is listed
with 0 lines and what it gives. The store-value coupons of a quote (R75, R76): in presentation order, each ACTIVE one
whose minimum spend the payable still reaches applies its value or what is left of the payable; one that applies
nothing is NOT_APPLIED, and a DORMANT OFFER_KEY coupon is reported so. -/
def Obligations.SpendOffersAndStoreValuesComeOffInOrder : Prop :=
  (∀ (offers os : List Offer) (x : Schedule) (q : Snapshot) (v : Quote) (total : Nat),
      offers.Pairwise (fun o p => o.id < p.id) → os = offers.filter q.applicable → v = resolve offers x q →
      total = (v.lines.map (·.net)).sum →
      ∃ taken : List Offer, taken.Pairwise RanksBefore ∧
        (∀ o, o ∈ taken ↔ SpendQualifies os (netsOf q v) o ∧
          (o.stackable = true ∨
            BestOf (fun p => SpendQualifies os (netsOf q v) p ∧ p.stackable = false) (·.value) o)) ∧
        v.basketSaving = min (taken.map (·.value)).sum total ∧
        (∀ (n : Nat) (o : Offer) (given : Nat), taken[n]? = some o →
          given = min o.value (total - ((taken.take n).map (·.value)).sum) →
          (0 < given → v.notListed = 0 → { offer := o.id, lines := 0, saving := given } ∈ v.applied) ∧
          ∀ e ∈ v.applied, e.offer = o.id → 0 < given ∧ e.lines = 0 ∧ e.saving = given) ∧
        ∀ e ∈ v.applied, ∀ o ∈ os, o.id = e.offer → o.kind = .spendOff → o ∈ taken) ∧
  (∀ (offers : List Offer) (x : Schedule) (q : Snapshot) (v : Quote), v = resolve offers x q →
      ∃ amounts : List Nat, amounts.length = q.coupons.length ∧ v.couponValue = amounts.sum ∧
        ∀ (n : Nat) (k : SnapCoupon) (amount payable : Nat), q.coupons[n]? = some k → amounts[n]? = some amount →
          payable = (v.lines.map (·.net)).sum - v.basketSaving - (amounts.take n).sum →
          (∀ value least, k.kind = .storeValue value least →
            amount = (if k.active = true ∧ least ≤ payable then min value payable else 0) ∧
            v.coupons[n]? = some (if amount = 0 then .notApplied else .applied amount)) ∧
          (∀ id, k.kind = .offerKey id → amount = 0 ∧ (k.active = false → v.coupons[n]? = some .dormant)))

/-- The points a quote earns (R78, R79, R81): none without an account; else the base, which is the nets outside the
excluded departments less basket saving, coupon value and redemption, at the tier's rate, and for each line that
counts and carries no NO_OFFERS the bonus of the greatest boost on its department, all together at most 99,999,999. A
boost used on lines with a bonus is listed with their number and no saving. -/
def Obligations.PointsAreEarnedAtTheTiersRate : Prop :=
  ∀ (offers os : List Offer) (x : Schedule) (q : Snapshot) (v : Quote) (rate base : Nat)
    (bonus : SnapLine × Nat → Nat),
    offers.Pairwise (fun o p => o.id < p.id) → os = offers.filter q.applicable → v = resolve offers x q →
    rate = (match q.account with
      | none => 0
      | some ref => if ref.tier = 0 then x.earn0 else if ref.tier = 1 then x.earn1
        else if ref.tier = 2 then x.earn2 else x.earn3) →
    base = (((netsOf q v).filter fun y => x.excluded.getLsbD y.1.dept = false).map (·.2)).sum
      - (v.basketSaving + v.couponValue + v.redemption) →
    bonus = (fun y =>
      if x.excluded.getLsbD y.1.dept = true ∨ y.1.noOffers = true then 0
      else y.2 * rate * (((os.filter fun o => o.kind = .pointsBoost ∧ holdsDept o y.1.dept = true).map (·.value)).foldl
        max 0 - 1) / 100) →
    (q.account = none → v.pointsEarned = 0) ∧
    v.pointsEarned = min (base * rate / 100 + ((netsOf q v).map bonus).sum) 99999999 ∧
    ∃ used : List (Option Offer), used.length = (netsOf q v).length ∧
      (∀ (n : Nat) (y : SnapLine × Nat) (u : Option Offer), (netsOf q v)[n]? = some y → used[n]? = some u →
        (bonus y = 0 → u = none) ∧
        (0 < bonus y → ∃ o, u = some o ∧ BestOf (BoostsDept os y.1.dept) (·.value) o)) ∧
      ∀ o ∈ os, o.kind = .pointsBoost →
        (used.count (some o) ≠ 0 → v.notListed = 0 →
          { offer := o.id, lines := used.count (some o), saving := 0 } ∈ v.applied) ∧
        ∀ e ∈ v.applied, e.offer = o.id → used.count (some o) ≠ 0 ∧ e.lines = used.count (some o) ∧ e.saving = 0

/-- The redemption (R77): the reserved points at the redemption rate, at most the payable left by step 5, with the
points used rounded up and never above those reserved; nothing without points or without an account. -/
def Obligations.RedemptionFollowsTheRate : Prop :=
  ∀ (offers : List Offer) (x : Schedule) (q : Snapshot) (v : Quote) (r ppu left : Nat),
    v = resolve offers x q → ppu = x.redemptionRate → 1 ≤ ppu →
    (∀ l ∈ q.lines, l.floor ≤ l.list ∧ ∀ p, l.override = some p → p ≤ l.list) →
    r = (if q.account.isSome then q.reserved else 0) →
    left = v.gross - (v.overrideReduction + v.lineSavings + v.basketSaving + v.couponValue) →
    v.redemption = min (r * 100 / ppu) left ∧
    v.pointsUsed = v.redemption * ppu / 100 + (if v.redemption * ppu % 100 = 0 then 0 else 1) ∧
    v.payable = left - v.redemption ∧ v.redemption ≤ left ∧ v.pointsUsed ≤ r ∧
    (r = 0 → v.redemption = 0 ∧ v.pointsUsed = 0)

/-! ### Record layouts (chapter 12) -/

/-- The record image of the offer a valid entry holds is that entry (R43, R187, R190): no bit of an offer entry is
dropped, and the CRC-32 of OFFERS_CLOSE is over the bytes the host sent. -/
def Obligations.OfferImageIsTheEntry : Prop :=
  ∀ e : List Byte, e.length = 32 → firstBad (offerChecks e) = none → (offerOf e).image = e
end

