-- ==== Sys2Proof/Laws/State.lean ====
section
/-! SUPPORT. What each update of the state leaves alone: one lemma per field and update, for the writers of the
fixed tables and for the shared operations over them; and reading back what was written. -/

namespace Sys2Proof.Machine


/-! ### setLane -/

@[simp] theorem setLane_pending (s : State) (l : LaneNo) (x : Lane) : (s.setLane l x).pending = s.pending := rfl
@[simp] theorem setLane_now (s : State) (l : LaneNo) (x : Lane) : (s.setLane l x).now = s.now := rfl
@[simp] theorem setLane_draws (s : State) (l : LaneNo) (x : Lane) : (s.setLane l x).draws = s.draws := rfl
@[simp] theorem setLane_link (s : State) (l : LaneNo) (x : Lane) : (s.setLane l x).link = s.link := rfl
@[simp] theorem setLane_pool (s : State) (l : LaneNo) (x : Lane) : (s.setLane l x).pool = s.pool := rfl
@[simp] theorem setLane_bulk (s : State) (l : LaneNo) (x : Lane) : (s.setLane l x).bulk = s.bulk := rfl
@[simp] theorem setLane_mainQ (s : State) (l : LaneNo) (x : Lane) : (s.setLane l x).mainQ = s.mainQ := rfl
@[simp] theorem setLane_notices (s : State) (l : LaneNo) (x : Lane) : (s.setLane l x).notices = s.notices := rfl
@[simp] theorem setLane_ctxs (s : State) (l : LaneNo) (x : Lane) : (s.setLane l x).ctxs = s.ctxs := rfl
@[simp] theorem setLane_parks (s : State) (l : LaneNo) (x : Lane) : (s.setLane l x).parks = s.parks := rfl
@[simp] theorem setLane_banks (s : State) (l : LaneNo) (x : Lane) : (s.setLane l x).banks = s.banks := rfl
@[simp] theorem setLane_claims (s : State) (l : LaneNo) (x : Lane) : (s.setLane l x).claims = s.claims := rfl
@[simp] theorem setLane_accounts (s : State) (l : LaneNo) (x : Lane) : (s.setLane l x).accounts = s.accounts := rfl
@[simp] theorem setLane_authority (s : State) (l : LaneNo) (x : Lane) : (s.setLane l x).authority = s.authority := rfl
@[simp] theorem setLane_sched (s : State) (l : LaneNo) (x : Lane) : (s.setLane l x).sched = s.sched := rfl
@[simp] theorem setLane_streams (s : State) (l : LaneNo) (x : Lane) : (s.setLane l x).streams = s.streams := rfl
@[simp] theorem setLane_conds (s : State) (l : LaneNo) (x : Lane) : (s.setLane l x).conds = s.conds := rfl
@[simp] theorem setLane_config (s : State) (l : LaneNo) (x : Lane) : (s.setLane l x).config = s.config := rfl
@[simp] theorem setLane_device (s : State) (l : LaneNo) (x : Lane) : (s.setLane l x).device = s.device := rfl

/-! ### setCtx -/

@[simp] theorem setCtx_pending (s : State) (c : CtxNo) (x : Context) : (s.setCtx c x).pending = s.pending := rfl
@[simp] theorem setCtx_now (s : State) (c : CtxNo) (x : Context) : (s.setCtx c x).now = s.now := rfl
@[simp] theorem setCtx_draws (s : State) (c : CtxNo) (x : Context) : (s.setCtx c x).draws = s.draws := rfl
@[simp] theorem setCtx_link (s : State) (c : CtxNo) (x : Context) : (s.setCtx c x).link = s.link := rfl
@[simp] theorem setCtx_pool (s : State) (c : CtxNo) (x : Context) : (s.setCtx c x).pool = s.pool := rfl
@[simp] theorem setCtx_bulk (s : State) (c : CtxNo) (x : Context) : (s.setCtx c x).bulk = s.bulk := rfl
@[simp] theorem setCtx_mainQ (s : State) (c : CtxNo) (x : Context) : (s.setCtx c x).mainQ = s.mainQ := rfl
@[simp] theorem setCtx_notices (s : State) (c : CtxNo) (x : Context) : (s.setCtx c x).notices = s.notices := rfl
@[simp] theorem setCtx_lanes (s : State) (c : CtxNo) (x : Context) : (s.setCtx c x).lanes = s.lanes := rfl
@[simp] theorem setCtx_parks (s : State) (c : CtxNo) (x : Context) : (s.setCtx c x).parks = s.parks := rfl
@[simp] theorem setCtx_banks (s : State) (c : CtxNo) (x : Context) : (s.setCtx c x).banks = s.banks := rfl
@[simp] theorem setCtx_claims (s : State) (c : CtxNo) (x : Context) : (s.setCtx c x).claims = s.claims := rfl
@[simp] theorem setCtx_accounts (s : State) (c : CtxNo) (x : Context) : (s.setCtx c x).accounts = s.accounts := rfl
@[simp] theorem setCtx_authority (s : State) (c : CtxNo) (x : Context) : (s.setCtx c x).authority = s.authority := rfl
@[simp] theorem setCtx_sched (s : State) (c : CtxNo) (x : Context) : (s.setCtx c x).sched = s.sched := rfl
@[simp] theorem setCtx_streams (s : State) (c : CtxNo) (x : Context) : (s.setCtx c x).streams = s.streams := rfl
@[simp] theorem setCtx_conds (s : State) (c : CtxNo) (x : Context) : (s.setCtx c x).conds = s.conds := rfl
@[simp] theorem setCtx_config (s : State) (c : CtxNo) (x : Context) : (s.setCtx c x).config = s.config := rfl
@[simp] theorem setCtx_device (s : State) (c : CtxNo) (x : Context) : (s.setCtx c x).device = s.device := rfl

/-! ### setBank -/

@[simp] theorem setBank_pending (s : State) (b : BankNo) (x : Bank) : (s.setBank b x).pending = s.pending := rfl
@[simp] theorem setBank_now (s : State) (b : BankNo) (x : Bank) : (s.setBank b x).now = s.now := rfl
@[simp] theorem setBank_draws (s : State) (b : BankNo) (x : Bank) : (s.setBank b x).draws = s.draws := rfl
@[simp] theorem setBank_link (s : State) (b : BankNo) (x : Bank) : (s.setBank b x).link = s.link := rfl
@[simp] theorem setBank_pool (s : State) (b : BankNo) (x : Bank) : (s.setBank b x).pool = s.pool := rfl
@[simp] theorem setBank_bulk (s : State) (b : BankNo) (x : Bank) : (s.setBank b x).bulk = s.bulk := rfl
@[simp] theorem setBank_mainQ (s : State) (b : BankNo) (x : Bank) : (s.setBank b x).mainQ = s.mainQ := rfl
@[simp] theorem setBank_notices (s : State) (b : BankNo) (x : Bank) : (s.setBank b x).notices = s.notices := rfl
@[simp] theorem setBank_lanes (s : State) (b : BankNo) (x : Bank) : (s.setBank b x).lanes = s.lanes := rfl
@[simp] theorem setBank_ctxs (s : State) (b : BankNo) (x : Bank) : (s.setBank b x).ctxs = s.ctxs := rfl
@[simp] theorem setBank_parks (s : State) (b : BankNo) (x : Bank) : (s.setBank b x).parks = s.parks := rfl
@[simp] theorem setBank_claims (s : State) (b : BankNo) (x : Bank) : (s.setBank b x).claims = s.claims := rfl
@[simp] theorem setBank_accounts (s : State) (b : BankNo) (x : Bank) : (s.setBank b x).accounts = s.accounts := rfl
@[simp] theorem setBank_authority (s : State) (b : BankNo) (x : Bank) : (s.setBank b x).authority = s.authority := rfl
@[simp] theorem setBank_sched (s : State) (b : BankNo) (x : Bank) : (s.setBank b x).sched = s.sched := rfl
@[simp] theorem setBank_streams (s : State) (b : BankNo) (x : Bank) : (s.setBank b x).streams = s.streams := rfl
@[simp] theorem setBank_conds (s : State) (b : BankNo) (x : Bank) : (s.setBank b x).conds = s.conds := rfl
@[simp] theorem setBank_config (s : State) (b : BankNo) (x : Bank) : (s.setBank b x).config = s.config := rfl
@[simp] theorem setBank_device (s : State) (b : BankNo) (x : Bank) : (s.setBank b x).device = s.device := rfl

/-! ### setStream -/

@[simp] theorem setStream_pending (s : State) (l : LaneNo) (x : Option Stream) : (s.setStream l x).pending = s.pending := rfl
@[simp] theorem setStream_now (s : State) (l : LaneNo) (x : Option Stream) : (s.setStream l x).now = s.now := rfl
@[simp] theorem setStream_draws (s : State) (l : LaneNo) (x : Option Stream) : (s.setStream l x).draws = s.draws := rfl
@[simp] theorem setStream_link (s : State) (l : LaneNo) (x : Option Stream) : (s.setStream l x).link = s.link := rfl
@[simp] theorem setStream_pool (s : State) (l : LaneNo) (x : Option Stream) : (s.setStream l x).pool = s.pool := rfl
@[simp] theorem setStream_bulk (s : State) (l : LaneNo) (x : Option Stream) : (s.setStream l x).bulk = s.bulk := rfl
@[simp] theorem setStream_mainQ (s : State) (l : LaneNo) (x : Option Stream) : (s.setStream l x).mainQ = s.mainQ := rfl
@[simp] theorem setStream_notices (s : State) (l : LaneNo) (x : Option Stream) : (s.setStream l x).notices = s.notices := rfl
@[simp] theorem setStream_lanes (s : State) (l : LaneNo) (x : Option Stream) : (s.setStream l x).lanes = s.lanes := rfl
@[simp] theorem setStream_ctxs (s : State) (l : LaneNo) (x : Option Stream) : (s.setStream l x).ctxs = s.ctxs := rfl
@[simp] theorem setStream_parks (s : State) (l : LaneNo) (x : Option Stream) : (s.setStream l x).parks = s.parks := rfl
@[simp] theorem setStream_banks (s : State) (l : LaneNo) (x : Option Stream) : (s.setStream l x).banks = s.banks := rfl
@[simp] theorem setStream_claims (s : State) (l : LaneNo) (x : Option Stream) : (s.setStream l x).claims = s.claims := rfl
@[simp] theorem setStream_accounts (s : State) (l : LaneNo) (x : Option Stream) : (s.setStream l x).accounts = s.accounts := rfl
@[simp] theorem setStream_authority (s : State) (l : LaneNo) (x : Option Stream) : (s.setStream l x).authority = s.authority := rfl
@[simp] theorem setStream_sched (s : State) (l : LaneNo) (x : Option Stream) : (s.setStream l x).sched = s.sched := rfl
@[simp] theorem setStream_conds (s : State) (l : LaneNo) (x : Option Stream) : (s.setStream l x).conds = s.conds := rfl
@[simp] theorem setStream_config (s : State) (l : LaneNo) (x : Option Stream) : (s.setStream l x).config = s.config := rfl
@[simp] theorem setStream_device (s : State) (l : LaneNo) (x : Option Stream) : (s.setStream l x).device = s.device := rfl

/-! ### setCond -/

@[simp] theorem setCond_pending (s : State) (c : CondClass) (x : Cond) : (s.setCond c x).pending = s.pending := rfl
@[simp] theorem setCond_now (s : State) (c : CondClass) (x : Cond) : (s.setCond c x).now = s.now := rfl
@[simp] theorem setCond_draws (s : State) (c : CondClass) (x : Cond) : (s.setCond c x).draws = s.draws := rfl
@[simp] theorem setCond_link (s : State) (c : CondClass) (x : Cond) : (s.setCond c x).link = s.link := rfl
@[simp] theorem setCond_pool (s : State) (c : CondClass) (x : Cond) : (s.setCond c x).pool = s.pool := rfl
@[simp] theorem setCond_bulk (s : State) (c : CondClass) (x : Cond) : (s.setCond c x).bulk = s.bulk := rfl
@[simp] theorem setCond_mainQ (s : State) (c : CondClass) (x : Cond) : (s.setCond c x).mainQ = s.mainQ := rfl
@[simp] theorem setCond_notices (s : State) (c : CondClass) (x : Cond) : (s.setCond c x).notices = s.notices := rfl
@[simp] theorem setCond_lanes (s : State) (c : CondClass) (x : Cond) : (s.setCond c x).lanes = s.lanes := rfl
@[simp] theorem setCond_ctxs (s : State) (c : CondClass) (x : Cond) : (s.setCond c x).ctxs = s.ctxs := rfl
@[simp] theorem setCond_parks (s : State) (c : CondClass) (x : Cond) : (s.setCond c x).parks = s.parks := rfl
@[simp] theorem setCond_banks (s : State) (c : CondClass) (x : Cond) : (s.setCond c x).banks = s.banks := rfl
@[simp] theorem setCond_claims (s : State) (c : CondClass) (x : Cond) : (s.setCond c x).claims = s.claims := rfl
@[simp] theorem setCond_accounts (s : State) (c : CondClass) (x : Cond) : (s.setCond c x).accounts = s.accounts := rfl
@[simp] theorem setCond_authority (s : State) (c : CondClass) (x : Cond) : (s.setCond c x).authority = s.authority := rfl
@[simp] theorem setCond_sched (s : State) (c : CondClass) (x : Cond) : (s.setCond c x).sched = s.sched := rfl
@[simp] theorem setCond_streams (s : State) (c : CondClass) (x : Cond) : (s.setCond c x).streams = s.streams := rfl
@[simp] theorem setCond_config (s : State) (c : CondClass) (x : Cond) : (s.setCond c x).config = s.config := rfl
@[simp] theorem setCond_device (s : State) (c : CondClass) (x : Cond) : (s.setCond c x).device = s.device := rfl

/-! ### setInbound -/

@[simp] theorem setInbound_pending (s : State) (q : QueueId) (x : Inbound) : (s.setInbound q x).pending = s.pending := by cases q <;> rfl
@[simp] theorem setInbound_now (s : State) (q : QueueId) (x : Inbound) : (s.setInbound q x).now = s.now := by cases q <;> rfl
@[simp] theorem setInbound_draws (s : State) (q : QueueId) (x : Inbound) : (s.setInbound q x).draws = s.draws := by cases q <;> rfl
@[simp] theorem setInbound_link (s : State) (q : QueueId) (x : Inbound) : (s.setInbound q x).link = s.link := by cases q <;> rfl
@[simp] theorem setInbound_mainQ (s : State) (q : QueueId) (x : Inbound) : (s.setInbound q x).mainQ = s.mainQ := by cases q <;> rfl
@[simp] theorem setInbound_notices (s : State) (q : QueueId) (x : Inbound) : (s.setInbound q x).notices = s.notices := by cases q <;> rfl
@[simp] theorem setInbound_lanes (s : State) (q : QueueId) (x : Inbound) : (s.setInbound q x).lanes = s.lanes := by cases q <;> rfl
@[simp] theorem setInbound_ctxs (s : State) (q : QueueId) (x : Inbound) : (s.setInbound q x).ctxs = s.ctxs := by cases q <;> rfl
@[simp] theorem setInbound_parks (s : State) (q : QueueId) (x : Inbound) : (s.setInbound q x).parks = s.parks := by cases q <;> rfl
@[simp] theorem setInbound_banks (s : State) (q : QueueId) (x : Inbound) : (s.setInbound q x).banks = s.banks := by cases q <;> rfl
@[simp] theorem setInbound_claims (s : State) (q : QueueId) (x : Inbound) : (s.setInbound q x).claims = s.claims := by cases q <;> rfl
@[simp] theorem setInbound_accounts (s : State) (q : QueueId) (x : Inbound) : (s.setInbound q x).accounts = s.accounts := by cases q <;> rfl
@[simp] theorem setInbound_authority (s : State) (q : QueueId) (x : Inbound) : (s.setInbound q x).authority = s.authority := by cases q <;> rfl
@[simp] theorem setInbound_sched (s : State) (q : QueueId) (x : Inbound) : (s.setInbound q x).sched = s.sched := by cases q <;> rfl
@[simp] theorem setInbound_streams (s : State) (q : QueueId) (x : Inbound) : (s.setInbound q x).streams = s.streams := by cases q <;> rfl
@[simp] theorem setInbound_conds (s : State) (q : QueueId) (x : Inbound) : (s.setInbound q x).conds = s.conds := by cases q <;> rfl
@[simp] theorem setInbound_config (s : State) (q : QueueId) (x : Inbound) : (s.setInbound q x).config = s.config := by cases q <;> rfl
@[simp] theorem setInbound_device (s : State) (q : QueueId) (x : Inbound) : (s.setInbound q x).device = s.device := by cases q <;> rfl

/-! ### Reading back -/

theorem get_set_same {α : Type} {n : Nat} (v : Vector α n) (i : Fin n) (x : α) : (v.set i x).get i = x := by
  show (v.set i x)[(i : Nat)] = x
  simp
theorem get_set_ne {α : Type} {n : Nat} (v : Vector α n) {i j : Fin n} (x : α) (h : j ≠ i) :
    (v.set i x).get j = v.get j := by
  show (v.set i x)[(j : Nat)] = v[(j : Nat)]
  exact Vector.getElem_set_ne _ _ (fun e => h (Fin.ext e.symm))


@[simp] theorem lane_setLane_same (s : State) (l : LaneNo) (x : Lane) : (s.setLane l x).lane l = x := get_set_same ..
theorem lane_setLane_ne (s : State) {l m : LaneNo} (x : Lane) (h : m ≠ l) : (s.setLane l x).lane m = s.lane m := get_set_ne _ _ h
theorem lane_setLane (s : State) (l m : LaneNo) (x : Lane) :
    (s.setLane l x).lane m = if m = l then x else s.lane m := by
  split
  · next h => subst h; simp
  · next h => exact lane_setLane_ne s x h
@[simp] theorem ctx_setCtx_same (s : State) (c : CtxNo) (x : Context) : (s.setCtx c x).ctx c = x := get_set_same ..
theorem ctx_setCtx_ne (s : State) {c d : CtxNo} (x : Context) (h : d ≠ c) : (s.setCtx c x).ctx d = s.ctx d := get_set_ne _ _ h
theorem ctx_setCtx (s : State) (c d : CtxNo) (x : Context) :
    (s.setCtx c x).ctx d = if d = c then x else s.ctx d := by
  split
  · next h => subst h; simp
  · next h => exact ctx_setCtx_ne s x h
@[simp] theorem bank_setBank_same (s : State) (b : BankNo) (x : Bank) : (s.setBank b x).bank b = x := get_set_same ..
theorem bank_setBank_ne (s : State) {b d : BankNo} (x : Bank) (h : d ≠ b) : (s.setBank b x).bank d = s.bank d := get_set_ne _ _ h
theorem bank_setBank (s : State) (b d : BankNo) (x : Bank) :
    (s.setBank b x).bank d = if d = b then x else s.bank d := by
  split
  · next h => subst h; simp
  · next h => exact bank_setBank_ne s x h
@[simp] theorem stream_setStream_same (s : State) (l : LaneNo) (x : Option Stream) :
    (s.setStream l x).stream l = x := get_set_same ..
theorem stream_setStream_ne (s : State) {l m : LaneNo} (x : Option Stream) (h : m ≠ l) :
    (s.setStream l x).stream m = s.stream m := get_set_ne _ _ h
theorem stream_setStream (s : State) (l m : LaneNo) (x : Option Stream) :
    (s.setStream l x).stream m = if m = l then x else s.stream m := by
  split
  · next h => subst h; simp
  · next h => exact stream_setStream_ne s x h
theorem index_injective {c d : CondClass} (h : c.index = d.index) : c = d := by
  cases c <;> cases d <;> first | rfl | (exact absurd h (by decide))
@[simp] theorem cond_setCond_same (s : State) (c : CondClass) (x : Cond) : (s.setCond c x).cond c = x := get_set_same ..
theorem cond_setCond_ne (s : State) {c d : CondClass} (x : Cond) (h : d ≠ c) :
    (s.setCond c x).cond d = s.cond d :=
  get_set_ne _ _ fun e => h (index_injective e)
theorem cond_setCond (s : State) (c d : CondClass) (x : Cond) :
    (s.setCond c x).cond d = if d = c then x else s.cond d := by
  split
  · next h => subst h; simp
  · next h => exact cond_setCond_ne s x h
@[simp] theorem inbound_setInbound_same (s : State) (q : QueueId) (x : Inbound) :
    (s.setInbound q x).inbound q = x := by cases q <;> rfl
@[simp] theorem setInbound_pool_pool (s : State) (x : Inbound) : (s.setInbound .pool x).pool = x := rfl
@[simp] theorem setInbound_pool_bulk (s : State) (x : Inbound) : (s.setInbound .pool x).bulk = s.bulk := rfl
@[simp] theorem setInbound_bulk_pool (s : State) (x : Inbound) : (s.setInbound .bulk x).pool = s.pool := rfl
@[simp] theorem setInbound_bulk_bulk (s : State) (x : Inbound) : (s.setInbound .bulk x).bulk = x := rfl
@[simp] theorem setCond_mask (s : State) (c : CondClass) (x : Cond) : (s.setCond c x).conds.mask = s.conds.mask := rfl

/-! ### Records read from a table that a write does not touch -/

theorem lane_congr {s t : State} (h : t.lanes = s.lanes) (l : LaneNo) : t.lane l = s.lane l := by
  simp only [State.lane, h]
theorem ctx_congr {s t : State} (h : t.ctxs = s.ctxs) (c : CtxNo) : t.ctx c = s.ctx c := by
  simp only [State.ctx, h]
theorem bank_congr {s t : State} (h : t.banks = s.banks) (b : BankNo) : t.bank b = s.bank b := by
  simp only [State.bank, h]
theorem stream_congr {s t : State} (h : t.streams = s.streams) (l : LaneNo) : t.stream l = s.stream l := by
  simp only [State.stream, h]
theorem cond_congr {s t : State} (h : t.conds = s.conds) (c : CondClass) : t.cond c = s.cond c := by
  simp only [State.cond, h]


end Sys2Proof.Machine
end

