-- ==== Sys2Proof/Laws/Ops.lean ====
section
/-! SUPPORT. Everything a shared operation can do, said once: the fields it leaves alone, and what it does to the
others. -/

namespace Sys2Proof.Machine


/-! ### placeNotice -/

@[simp] theorem placeNotice_pending (c : CondClass) (s : State) : (placeNotice c s).pending = s.pending := by unfold placeNotice; split <;> rfl
@[simp] theorem placeNotice_now (c : CondClass) (s : State) : (placeNotice c s).now = s.now := by unfold placeNotice; split <;> rfl
@[simp] theorem placeNotice_draws (c : CondClass) (s : State) : (placeNotice c s).draws = s.draws := by unfold placeNotice; split <;> rfl
@[simp] theorem placeNotice_link (c : CondClass) (s : State) : (placeNotice c s).link = s.link := by unfold placeNotice; split <;> rfl
@[simp] theorem placeNotice_pool (c : CondClass) (s : State) : (placeNotice c s).pool = s.pool := by unfold placeNotice; split <;> rfl
@[simp] theorem placeNotice_bulk (c : CondClass) (s : State) : (placeNotice c s).bulk = s.bulk := by unfold placeNotice; split <;> rfl
@[simp] theorem placeNotice_mainQ (c : CondClass) (s : State) : (placeNotice c s).mainQ = s.mainQ := by unfold placeNotice; split <;> rfl
@[simp] theorem placeNotice_lanes (c : CondClass) (s : State) : (placeNotice c s).lanes = s.lanes := by unfold placeNotice; split <;> rfl
@[simp] theorem placeNotice_ctxs (c : CondClass) (s : State) : (placeNotice c s).ctxs = s.ctxs := by unfold placeNotice; split <;> rfl
@[simp] theorem placeNotice_parks (c : CondClass) (s : State) : (placeNotice c s).parks = s.parks := by unfold placeNotice; split <;> rfl
@[simp] theorem placeNotice_banks (c : CondClass) (s : State) : (placeNotice c s).banks = s.banks := by unfold placeNotice; split <;> rfl
@[simp] theorem placeNotice_claims (c : CondClass) (s : State) : (placeNotice c s).claims = s.claims := by unfold placeNotice; split <;> rfl
@[simp] theorem placeNotice_accounts (c : CondClass) (s : State) : (placeNotice c s).accounts = s.accounts := by unfold placeNotice; split <;> rfl
@[simp] theorem placeNotice_authority (c : CondClass) (s : State) : (placeNotice c s).authority = s.authority := by unfold placeNotice; split <;> rfl
@[simp] theorem placeNotice_sched (c : CondClass) (s : State) : (placeNotice c s).sched = s.sched := by unfold placeNotice; split <;> rfl
@[simp] theorem placeNotice_streams (c : CondClass) (s : State) : (placeNotice c s).streams = s.streams := by unfold placeNotice; split <;> rfl
@[simp] theorem placeNotice_conds (c : CondClass) (s : State) : (placeNotice c s).conds = s.conds := by unfold placeNotice; split <;> rfl
@[simp] theorem placeNotice_config (c : CondClass) (s : State) : (placeNotice c s).config = s.config := by unfold placeNotice; split <;> rfl
@[simp] theorem placeNotice_device (c : CondClass) (s : State) : (placeNotice c s).device = s.device := by unfold placeNotice; split <;> rfl

/-! ### raise -/

@[simp] theorem raise_pending (c : CondClass) (u : Detail → Detail) (s : State) : (raise c u s).pending = s.pending := by unfold raise; dsimp only; split <;> simp
@[simp] theorem raise_now (c : CondClass) (u : Detail → Detail) (s : State) : (raise c u s).now = s.now := by unfold raise; dsimp only; split <;> simp
@[simp] theorem raise_draws (c : CondClass) (u : Detail → Detail) (s : State) : (raise c u s).draws = s.draws := by unfold raise; dsimp only; split <;> simp
@[simp] theorem raise_link (c : CondClass) (u : Detail → Detail) (s : State) : (raise c u s).link = s.link := by unfold raise; dsimp only; split <;> simp
@[simp] theorem raise_pool (c : CondClass) (u : Detail → Detail) (s : State) : (raise c u s).pool = s.pool := by unfold raise; dsimp only; split <;> simp
@[simp] theorem raise_bulk (c : CondClass) (u : Detail → Detail) (s : State) : (raise c u s).bulk = s.bulk := by unfold raise; dsimp only; split <;> simp
@[simp] theorem raise_mainQ (c : CondClass) (u : Detail → Detail) (s : State) : (raise c u s).mainQ = s.mainQ := by unfold raise; dsimp only; split <;> simp
@[simp] theorem raise_lanes (c : CondClass) (u : Detail → Detail) (s : State) : (raise c u s).lanes = s.lanes := by unfold raise; dsimp only; split <;> simp
@[simp] theorem raise_ctxs (c : CondClass) (u : Detail → Detail) (s : State) : (raise c u s).ctxs = s.ctxs := by unfold raise; dsimp only; split <;> simp
@[simp] theorem raise_parks (c : CondClass) (u : Detail → Detail) (s : State) : (raise c u s).parks = s.parks := by unfold raise; dsimp only; split <;> simp
@[simp] theorem raise_banks (c : CondClass) (u : Detail → Detail) (s : State) : (raise c u s).banks = s.banks := by unfold raise; dsimp only; split <;> simp
@[simp] theorem raise_claims (c : CondClass) (u : Detail → Detail) (s : State) : (raise c u s).claims = s.claims := by unfold raise; dsimp only; split <;> simp
@[simp] theorem raise_accounts (c : CondClass) (u : Detail → Detail) (s : State) : (raise c u s).accounts = s.accounts := by unfold raise; dsimp only; split <;> simp
@[simp] theorem raise_authority (c : CondClass) (u : Detail → Detail) (s : State) : (raise c u s).authority = s.authority := by unfold raise; dsimp only; split <;> simp
@[simp] theorem raise_sched (c : CondClass) (u : Detail → Detail) (s : State) : (raise c u s).sched = s.sched := by unfold raise; dsimp only; split <;> simp
@[simp] theorem raise_streams (c : CondClass) (u : Detail → Detail) (s : State) : (raise c u s).streams = s.streams := by unfold raise; dsimp only; split <;> simp
@[simp] theorem raise_config (c : CondClass) (u : Detail → Detail) (s : State) : (raise c u s).config = s.config := by unfold raise; dsimp only; split <;> simp
@[simp] theorem raise_device (c : CondClass) (u : Detail → Detail) (s : State) : (raise c u s).device = s.device := by unfold raise; dsimp only; split <;> simp

/-! ### endExhaustion -/

@[simp] theorem endExhaustion_pending (s : State) : (endExhaustion s).pending = s.pending := rfl
@[simp] theorem endExhaustion_now (s : State) : (endExhaustion s).now = s.now := rfl
@[simp] theorem endExhaustion_draws (s : State) : (endExhaustion s).draws = s.draws := rfl
@[simp] theorem endExhaustion_link (s : State) : (endExhaustion s).link = s.link := rfl
@[simp] theorem endExhaustion_pool (s : State) : (endExhaustion s).pool = s.pool := rfl
@[simp] theorem endExhaustion_bulk (s : State) : (endExhaustion s).bulk = s.bulk := rfl
@[simp] theorem endExhaustion_mainQ (s : State) : (endExhaustion s).mainQ = s.mainQ := rfl
@[simp] theorem endExhaustion_notices (s : State) : (endExhaustion s).notices = s.notices := rfl
@[simp] theorem endExhaustion_lanes (s : State) : (endExhaustion s).lanes = s.lanes := rfl
@[simp] theorem endExhaustion_ctxs (s : State) : (endExhaustion s).ctxs = s.ctxs := rfl
@[simp] theorem endExhaustion_parks (s : State) : (endExhaustion s).parks = s.parks := rfl
@[simp] theorem endExhaustion_banks (s : State) : (endExhaustion s).banks = s.banks := rfl
@[simp] theorem endExhaustion_claims (s : State) : (endExhaustion s).claims = s.claims := rfl
@[simp] theorem endExhaustion_accounts (s : State) : (endExhaustion s).accounts = s.accounts := rfl
@[simp] theorem endExhaustion_authority (s : State) : (endExhaustion s).authority = s.authority := rfl
@[simp] theorem endExhaustion_sched (s : State) : (endExhaustion s).sched = s.sched := rfl
@[simp] theorem endExhaustion_streams (s : State) : (endExhaustion s).streams = s.streams := rfl
@[simp] theorem endExhaustion_config (s : State) : (endExhaustion s).config = s.config := rfl
@[simp] theorem endExhaustion_device (s : State) : (endExhaustion s).device = s.device := rfl

/-! ### linkFault -/

@[simp] theorem linkFault_pending (k : FaultKind) (s : State) : (linkFault k s).pending = s.pending := by simp [linkFault]
@[simp] theorem linkFault_now (k : FaultKind) (s : State) : (linkFault k s).now = s.now := by simp [linkFault]
@[simp] theorem linkFault_draws (k : FaultKind) (s : State) : (linkFault k s).draws = s.draws := by simp [linkFault]
@[simp] theorem linkFault_pool (k : FaultKind) (s : State) : (linkFault k s).pool = s.pool := by simp [linkFault]
@[simp] theorem linkFault_bulk (k : FaultKind) (s : State) : (linkFault k s).bulk = s.bulk := by simp [linkFault]
@[simp] theorem linkFault_mainQ (k : FaultKind) (s : State) : (linkFault k s).mainQ = s.mainQ := by simp [linkFault]
@[simp] theorem linkFault_lanes (k : FaultKind) (s : State) : (linkFault k s).lanes = s.lanes := by simp [linkFault]
@[simp] theorem linkFault_ctxs (k : FaultKind) (s : State) : (linkFault k s).ctxs = s.ctxs := by simp [linkFault]
@[simp] theorem linkFault_parks (k : FaultKind) (s : State) : (linkFault k s).parks = s.parks := by simp [linkFault]
@[simp] theorem linkFault_banks (k : FaultKind) (s : State) : (linkFault k s).banks = s.banks := by simp [linkFault]
@[simp] theorem linkFault_claims (k : FaultKind) (s : State) : (linkFault k s).claims = s.claims := by simp [linkFault]
@[simp] theorem linkFault_accounts (k : FaultKind) (s : State) : (linkFault k s).accounts = s.accounts := by simp [linkFault]
@[simp] theorem linkFault_authority (k : FaultKind) (s : State) : (linkFault k s).authority = s.authority := by simp [linkFault]
@[simp] theorem linkFault_sched (k : FaultKind) (s : State) : (linkFault k s).sched = s.sched := by simp [linkFault]
@[simp] theorem linkFault_streams (k : FaultKind) (s : State) : (linkFault k s).streams = s.streams := by simp [linkFault]
@[simp] theorem linkFault_config (k : FaultKind) (s : State) : (linkFault k s).config = s.config := by simp [linkFault]
@[simp] theorem linkFault_device (k : FaultKind) (s : State) : (linkFault k s).device = s.device := by simp [linkFault]

/-! ### setMask -/

@[simp] theorem setMask_pending (m : BitVec 8) (s : State) : (setMask m s).pending = s.pending := rfl
@[simp] theorem setMask_now (m : BitVec 8) (s : State) : (setMask m s).now = s.now := rfl
@[simp] theorem setMask_link (m : BitVec 8) (s : State) : (setMask m s).link = s.link := rfl
@[simp] theorem setMask_pool (m : BitVec 8) (s : State) : (setMask m s).pool = s.pool := rfl
@[simp] theorem setMask_bulk (m : BitVec 8) (s : State) : (setMask m s).bulk = s.bulk := rfl
@[simp] theorem setMask_mainQ (m : BitVec 8) (s : State) : (setMask m s).mainQ = s.mainQ := rfl
@[simp] theorem setMask_lanes (m : BitVec 8) (s : State) : (setMask m s).lanes = s.lanes := rfl
@[simp] theorem setMask_ctxs (m : BitVec 8) (s : State) : (setMask m s).ctxs = s.ctxs := rfl
@[simp] theorem setMask_parks (m : BitVec 8) (s : State) : (setMask m s).parks = s.parks := rfl
@[simp] theorem setMask_banks (m : BitVec 8) (s : State) : (setMask m s).banks = s.banks := rfl
@[simp] theorem setMask_claims (m : BitVec 8) (s : State) : (setMask m s).claims = s.claims := rfl
@[simp] theorem setMask_accounts (m : BitVec 8) (s : State) : (setMask m s).accounts = s.accounts := rfl
@[simp] theorem setMask_authority (m : BitVec 8) (s : State) : (setMask m s).authority = s.authority := rfl
@[simp] theorem setMask_sched (m : BitVec 8) (s : State) : (setMask m s).sched = s.sched := rfl
@[simp] theorem setMask_streams (m : BitVec 8) (s : State) : (setMask m s).streams = s.streams := rfl
@[simp] theorem setMask_config (m : BitVec 8) (s : State) : (setMask m s).config = s.config := rfl
@[simp] theorem setMask_device (m : BitVec 8) (s : State) : (setMask m s).device = s.device := rfl

/-! ### startIdle -/

@[simp] theorem startIdle_pending (n : Nat) (l : LaneNo) (s : State) : (startIdle n l s).pending = s.pending := by unfold startIdle; split <;> rfl
@[simp] theorem startIdle_now (n : Nat) (l : LaneNo) (s : State) : (startIdle n l s).now = s.now := by unfold startIdle; split <;> rfl
@[simp] theorem startIdle_draws (n : Nat) (l : LaneNo) (s : State) : (startIdle n l s).draws = s.draws := by unfold startIdle; split <;> rfl
@[simp] theorem startIdle_link (n : Nat) (l : LaneNo) (s : State) : (startIdle n l s).link = s.link := by unfold startIdle; split <;> rfl
@[simp] theorem startIdle_pool (n : Nat) (l : LaneNo) (s : State) : (startIdle n l s).pool = s.pool := by unfold startIdle; split <;> rfl
@[simp] theorem startIdle_bulk (n : Nat) (l : LaneNo) (s : State) : (startIdle n l s).bulk = s.bulk := by unfold startIdle; split <;> rfl
@[simp] theorem startIdle_mainQ (n : Nat) (l : LaneNo) (s : State) : (startIdle n l s).mainQ = s.mainQ := by unfold startIdle; split <;> rfl
@[simp] theorem startIdle_notices (n : Nat) (l : LaneNo) (s : State) : (startIdle n l s).notices = s.notices := by unfold startIdle; split <;> rfl
@[simp] theorem startIdle_ctxs (n : Nat) (l : LaneNo) (s : State) : (startIdle n l s).ctxs = s.ctxs := by unfold startIdle; split <;> rfl
@[simp] theorem startIdle_parks (n : Nat) (l : LaneNo) (s : State) : (startIdle n l s).parks = s.parks := by unfold startIdle; split <;> rfl
@[simp] theorem startIdle_banks (n : Nat) (l : LaneNo) (s : State) : (startIdle n l s).banks = s.banks := by unfold startIdle; split <;> rfl
@[simp] theorem startIdle_claims (n : Nat) (l : LaneNo) (s : State) : (startIdle n l s).claims = s.claims := by unfold startIdle; split <;> rfl
@[simp] theorem startIdle_accounts (n : Nat) (l : LaneNo) (s : State) : (startIdle n l s).accounts = s.accounts := by unfold startIdle; split <;> rfl
@[simp] theorem startIdle_authority (n : Nat) (l : LaneNo) (s : State) : (startIdle n l s).authority = s.authority := by unfold startIdle; split <;> rfl
@[simp] theorem startIdle_sched (n : Nat) (l : LaneNo) (s : State) : (startIdle n l s).sched = s.sched := by unfold startIdle; split <;> rfl
@[simp] theorem startIdle_streams (n : Nat) (l : LaneNo) (s : State) : (startIdle n l s).streams = s.streams := by unfold startIdle; split <;> rfl
@[simp] theorem startIdle_conds (n : Nat) (l : LaneNo) (s : State) : (startIdle n l s).conds = s.conds := by unfold startIdle; split <;> rfl
@[simp] theorem startIdle_config (n : Nat) (l : LaneNo) (s : State) : (startIdle n l s).config = s.config := by unfold startIdle; split <;> rfl
@[simp] theorem startIdle_device (n : Nat) (l : LaneNo) (s : State) : (startIdle n l s).device = s.device := by unfold startIdle; split <;> rfl

/-! ### stopIdle -/

@[simp] theorem stopIdle_pending (l : LaneNo) (s : State) : (stopIdle l s).pending = s.pending := rfl
@[simp] theorem stopIdle_now (l : LaneNo) (s : State) : (stopIdle l s).now = s.now := rfl
@[simp] theorem stopIdle_draws (l : LaneNo) (s : State) : (stopIdle l s).draws = s.draws := rfl
@[simp] theorem stopIdle_link (l : LaneNo) (s : State) : (stopIdle l s).link = s.link := rfl
@[simp] theorem stopIdle_pool (l : LaneNo) (s : State) : (stopIdle l s).pool = s.pool := rfl
@[simp] theorem stopIdle_bulk (l : LaneNo) (s : State) : (stopIdle l s).bulk = s.bulk := rfl
@[simp] theorem stopIdle_mainQ (l : LaneNo) (s : State) : (stopIdle l s).mainQ = s.mainQ := rfl
@[simp] theorem stopIdle_notices (l : LaneNo) (s : State) : (stopIdle l s).notices = s.notices := rfl
@[simp] theorem stopIdle_ctxs (l : LaneNo) (s : State) : (stopIdle l s).ctxs = s.ctxs := rfl
@[simp] theorem stopIdle_parks (l : LaneNo) (s : State) : (stopIdle l s).parks = s.parks := rfl
@[simp] theorem stopIdle_banks (l : LaneNo) (s : State) : (stopIdle l s).banks = s.banks := rfl
@[simp] theorem stopIdle_claims (l : LaneNo) (s : State) : (stopIdle l s).claims = s.claims := rfl
@[simp] theorem stopIdle_accounts (l : LaneNo) (s : State) : (stopIdle l s).accounts = s.accounts := rfl
@[simp] theorem stopIdle_authority (l : LaneNo) (s : State) : (stopIdle l s).authority = s.authority := rfl
@[simp] theorem stopIdle_sched (l : LaneNo) (s : State) : (stopIdle l s).sched = s.sched := rfl
@[simp] theorem stopIdle_streams (l : LaneNo) (s : State) : (stopIdle l s).streams = s.streams := rfl
@[simp] theorem stopIdle_conds (l : LaneNo) (s : State) : (stopIdle l s).conds = s.conds := rfl
@[simp] theorem stopIdle_config (l : LaneNo) (s : State) : (stopIdle l s).config = s.config := rfl
@[simp] theorem stopIdle_device (l : LaneNo) (s : State) : (stopIdle l s).device = s.device := rfl

/-! ### touchIdle -/

@[simp] theorem touchIdle_pending (l : LaneNo) (s : State) : (touchIdle l s).pending = s.pending := by unfold touchIdle; split <;> simp
@[simp] theorem touchIdle_now (l : LaneNo) (s : State) : (touchIdle l s).now = s.now := by unfold touchIdle; split <;> simp
@[simp] theorem touchIdle_draws (l : LaneNo) (s : State) : (touchIdle l s).draws = s.draws := by unfold touchIdle; split <;> simp
@[simp] theorem touchIdle_link (l : LaneNo) (s : State) : (touchIdle l s).link = s.link := by unfold touchIdle; split <;> simp
@[simp] theorem touchIdle_pool (l : LaneNo) (s : State) : (touchIdle l s).pool = s.pool := by unfold touchIdle; split <;> simp
@[simp] theorem touchIdle_bulk (l : LaneNo) (s : State) : (touchIdle l s).bulk = s.bulk := by unfold touchIdle; split <;> simp
@[simp] theorem touchIdle_mainQ (l : LaneNo) (s : State) : (touchIdle l s).mainQ = s.mainQ := by unfold touchIdle; split <;> simp
@[simp] theorem touchIdle_notices (l : LaneNo) (s : State) : (touchIdle l s).notices = s.notices := by unfold touchIdle; split <;> simp
@[simp] theorem touchIdle_ctxs (l : LaneNo) (s : State) : (touchIdle l s).ctxs = s.ctxs := by unfold touchIdle; split <;> simp
@[simp] theorem touchIdle_parks (l : LaneNo) (s : State) : (touchIdle l s).parks = s.parks := by unfold touchIdle; split <;> simp
@[simp] theorem touchIdle_banks (l : LaneNo) (s : State) : (touchIdle l s).banks = s.banks := by unfold touchIdle; split <;> simp
@[simp] theorem touchIdle_claims (l : LaneNo) (s : State) : (touchIdle l s).claims = s.claims := by unfold touchIdle; split <;> simp
@[simp] theorem touchIdle_accounts (l : LaneNo) (s : State) : (touchIdle l s).accounts = s.accounts := by unfold touchIdle; split <;> simp
@[simp] theorem touchIdle_authority (l : LaneNo) (s : State) : (touchIdle l s).authority = s.authority := by unfold touchIdle; split <;> simp
@[simp] theorem touchIdle_sched (l : LaneNo) (s : State) : (touchIdle l s).sched = s.sched := by unfold touchIdle; split <;> simp
@[simp] theorem touchIdle_streams (l : LaneNo) (s : State) : (touchIdle l s).streams = s.streams := by unfold touchIdle; split <;> simp
@[simp] theorem touchIdle_conds (l : LaneNo) (s : State) : (touchIdle l s).conds = s.conds := by unfold touchIdle; split <;> simp
@[simp] theorem touchIdle_config (l : LaneNo) (s : State) : (touchIdle l s).config = s.config := by unfold touchIdle; split <;> simp
@[simp] theorem touchIdle_device (l : LaneNo) (s : State) : (touchIdle l s).device = s.device := by unfold touchIdle; split <;> simp

/-! ### leaveWaiting -/

@[simp] theorem leaveWaiting_pending (l : LaneNo) (s : State) : (leaveWaiting l s).pending = s.pending := rfl
@[simp] theorem leaveWaiting_now (l : LaneNo) (s : State) : (leaveWaiting l s).now = s.now := rfl
@[simp] theorem leaveWaiting_draws (l : LaneNo) (s : State) : (leaveWaiting l s).draws = s.draws := rfl
@[simp] theorem leaveWaiting_link (l : LaneNo) (s : State) : (leaveWaiting l s).link = s.link := rfl
@[simp] theorem leaveWaiting_pool (l : LaneNo) (s : State) : (leaveWaiting l s).pool = s.pool := rfl
@[simp] theorem leaveWaiting_bulk (l : LaneNo) (s : State) : (leaveWaiting l s).bulk = s.bulk := rfl
@[simp] theorem leaveWaiting_mainQ (l : LaneNo) (s : State) : (leaveWaiting l s).mainQ = s.mainQ := rfl
@[simp] theorem leaveWaiting_notices (l : LaneNo) (s : State) : (leaveWaiting l s).notices = s.notices := rfl
@[simp] theorem leaveWaiting_ctxs (l : LaneNo) (s : State) : (leaveWaiting l s).ctxs = s.ctxs := rfl
@[simp] theorem leaveWaiting_parks (l : LaneNo) (s : State) : (leaveWaiting l s).parks = s.parks := rfl
@[simp] theorem leaveWaiting_banks (l : LaneNo) (s : State) : (leaveWaiting l s).banks = s.banks := rfl
@[simp] theorem leaveWaiting_claims (l : LaneNo) (s : State) : (leaveWaiting l s).claims = s.claims := rfl
@[simp] theorem leaveWaiting_accounts (l : LaneNo) (s : State) : (leaveWaiting l s).accounts = s.accounts := rfl
@[simp] theorem leaveWaiting_authority (l : LaneNo) (s : State) : (leaveWaiting l s).authority = s.authority := rfl
@[simp] theorem leaveWaiting_streams (l : LaneNo) (s : State) : (leaveWaiting l s).streams = s.streams := rfl
@[simp] theorem leaveWaiting_conds (l : LaneNo) (s : State) : (leaveWaiting l s).conds = s.conds := rfl
@[simp] theorem leaveWaiting_config (l : LaneNo) (s : State) : (leaveWaiting l s).config = s.config := rfl
@[simp] theorem leaveWaiting_device (l : LaneNo) (s : State) : (leaveWaiting l s).device = s.device := rfl

/-! ### clearLane -/

@[simp] theorem clearLane_pending (l : LaneNo) (s : State) : (clearLane l s).pending = s.pending := rfl
@[simp] theorem clearLane_now (l : LaneNo) (s : State) : (clearLane l s).now = s.now := rfl
@[simp] theorem clearLane_draws (l : LaneNo) (s : State) : (clearLane l s).draws = s.draws := rfl
@[simp] theorem clearLane_link (l : LaneNo) (s : State) : (clearLane l s).link = s.link := rfl
@[simp] theorem clearLane_pool (l : LaneNo) (s : State) : (clearLane l s).pool = s.pool := rfl
@[simp] theorem clearLane_bulk (l : LaneNo) (s : State) : (clearLane l s).bulk = s.bulk := rfl
@[simp] theorem clearLane_mainQ (l : LaneNo) (s : State) : (clearLane l s).mainQ = s.mainQ := rfl
@[simp] theorem clearLane_notices (l : LaneNo) (s : State) : (clearLane l s).notices = s.notices := rfl
@[simp] theorem clearLane_ctxs (l : LaneNo) (s : State) : (clearLane l s).ctxs = s.ctxs := rfl
@[simp] theorem clearLane_parks (l : LaneNo) (s : State) : (clearLane l s).parks = s.parks := rfl
@[simp] theorem clearLane_banks (l : LaneNo) (s : State) : (clearLane l s).banks = s.banks := rfl
@[simp] theorem clearLane_claims (l : LaneNo) (s : State) : (clearLane l s).claims = s.claims := rfl
@[simp] theorem clearLane_accounts (l : LaneNo) (s : State) : (clearLane l s).accounts = s.accounts := rfl
@[simp] theorem clearLane_authority (l : LaneNo) (s : State) : (clearLane l s).authority = s.authority := rfl
@[simp] theorem clearLane_streams (l : LaneNo) (s : State) : (clearLane l s).streams = s.streams := rfl
@[simp] theorem clearLane_conds (l : LaneNo) (s : State) : (clearLane l s).conds = s.conds := rfl
@[simp] theorem clearLane_config (l : LaneNo) (s : State) : (clearLane l s).config = s.config := rfl
@[simp] theorem clearLane_device (l : LaneNo) (s : State) : (clearLane l s).device = s.device := rfl

/-! ### bumpRevision -/

@[simp] theorem bumpRevision_pending (c : CtxNo) (s : State) : (bumpRevision c s).pending = s.pending := by unfold bumpRevision; split <;> rfl
@[simp] theorem bumpRevision_now (c : CtxNo) (s : State) : (bumpRevision c s).now = s.now := by unfold bumpRevision; split <;> rfl
@[simp] theorem bumpRevision_draws (c : CtxNo) (s : State) : (bumpRevision c s).draws = s.draws := by unfold bumpRevision; split <;> rfl
@[simp] theorem bumpRevision_link (c : CtxNo) (s : State) : (bumpRevision c s).link = s.link := by unfold bumpRevision; split <;> rfl
@[simp] theorem bumpRevision_pool (c : CtxNo) (s : State) : (bumpRevision c s).pool = s.pool := by unfold bumpRevision; split <;> rfl
@[simp] theorem bumpRevision_bulk (c : CtxNo) (s : State) : (bumpRevision c s).bulk = s.bulk := by unfold bumpRevision; split <;> rfl
@[simp] theorem bumpRevision_mainQ (c : CtxNo) (s : State) : (bumpRevision c s).mainQ = s.mainQ := by unfold bumpRevision; split <;> rfl
@[simp] theorem bumpRevision_notices (c : CtxNo) (s : State) : (bumpRevision c s).notices = s.notices := by unfold bumpRevision; split <;> rfl
@[simp] theorem bumpRevision_parks (c : CtxNo) (s : State) : (bumpRevision c s).parks = s.parks := by unfold bumpRevision; split <;> rfl
@[simp] theorem bumpRevision_banks (c : CtxNo) (s : State) : (bumpRevision c s).banks = s.banks := by unfold bumpRevision; split <;> rfl
@[simp] theorem bumpRevision_claims (c : CtxNo) (s : State) : (bumpRevision c s).claims = s.claims := by unfold bumpRevision; split <;> rfl
@[simp] theorem bumpRevision_accounts (c : CtxNo) (s : State) : (bumpRevision c s).accounts = s.accounts := by unfold bumpRevision; split <;> rfl
@[simp] theorem bumpRevision_authority (c : CtxNo) (s : State) : (bumpRevision c s).authority = s.authority := by unfold bumpRevision; split <;> rfl
@[simp] theorem bumpRevision_sched (c : CtxNo) (s : State) : (bumpRevision c s).sched = s.sched := by unfold bumpRevision; split <;> rfl
@[simp] theorem bumpRevision_streams (c : CtxNo) (s : State) : (bumpRevision c s).streams = s.streams := by unfold bumpRevision; split <;> rfl
@[simp] theorem bumpRevision_conds (c : CtxNo) (s : State) : (bumpRevision c s).conds = s.conds := by unfold bumpRevision; split <;> rfl
@[simp] theorem bumpRevision_config (c : CtxNo) (s : State) : (bumpRevision c s).config = s.config := by unfold bumpRevision; split <;> rfl
@[simp] theorem bumpRevision_device (c : CtxNo) (s : State) : (bumpRevision c s).device = s.device := by unfold bumpRevision; split <;> rfl

/-! ### freeCtx -/

@[simp] theorem freeCtx_pending (c : CtxNo) (s : State) : (freeCtx c s).pending = s.pending := rfl
@[simp] theorem freeCtx_now (c : CtxNo) (s : State) : (freeCtx c s).now = s.now := rfl
@[simp] theorem freeCtx_draws (c : CtxNo) (s : State) : (freeCtx c s).draws = s.draws := rfl
@[simp] theorem freeCtx_link (c : CtxNo) (s : State) : (freeCtx c s).link = s.link := rfl
@[simp] theorem freeCtx_pool (c : CtxNo) (s : State) : (freeCtx c s).pool = s.pool := rfl
@[simp] theorem freeCtx_bulk (c : CtxNo) (s : State) : (freeCtx c s).bulk = s.bulk := rfl
@[simp] theorem freeCtx_mainQ (c : CtxNo) (s : State) : (freeCtx c s).mainQ = s.mainQ := rfl
@[simp] theorem freeCtx_notices (c : CtxNo) (s : State) : (freeCtx c s).notices = s.notices := rfl
@[simp] theorem freeCtx_lanes (c : CtxNo) (s : State) : (freeCtx c s).lanes = s.lanes := rfl
@[simp] theorem freeCtx_parks (c : CtxNo) (s : State) : (freeCtx c s).parks = s.parks := rfl
@[simp] theorem freeCtx_banks (c : CtxNo) (s : State) : (freeCtx c s).banks = s.banks := rfl
@[simp] theorem freeCtx_claims (c : CtxNo) (s : State) : (freeCtx c s).claims = s.claims := rfl
@[simp] theorem freeCtx_accounts (c : CtxNo) (s : State) : (freeCtx c s).accounts = s.accounts := rfl
@[simp] theorem freeCtx_authority (c : CtxNo) (s : State) : (freeCtx c s).authority = s.authority := rfl
@[simp] theorem freeCtx_sched (c : CtxNo) (s : State) : (freeCtx c s).sched = s.sched := rfl
@[simp] theorem freeCtx_streams (c : CtxNo) (s : State) : (freeCtx c s).streams = s.streams := rfl
@[simp] theorem freeCtx_conds (c : CtxNo) (s : State) : (freeCtx c s).conds = s.conds := rfl
@[simp] theorem freeCtx_config (c : CtxNo) (s : State) : (freeCtx c s).config = s.config := rfl
@[simp] theorem freeCtx_device (c : CtxNo) (s : State) : (freeCtx c s).device = s.device := rfl

/-! ### pinBank -/

@[simp] theorem pinBank_pending (b : BankNo) (s : State) : (pinBank b s).pending = s.pending := rfl
@[simp] theorem pinBank_now (b : BankNo) (s : State) : (pinBank b s).now = s.now := rfl
@[simp] theorem pinBank_draws (b : BankNo) (s : State) : (pinBank b s).draws = s.draws := rfl
@[simp] theorem pinBank_link (b : BankNo) (s : State) : (pinBank b s).link = s.link := rfl
@[simp] theorem pinBank_pool (b : BankNo) (s : State) : (pinBank b s).pool = s.pool := rfl
@[simp] theorem pinBank_bulk (b : BankNo) (s : State) : (pinBank b s).bulk = s.bulk := rfl
@[simp] theorem pinBank_mainQ (b : BankNo) (s : State) : (pinBank b s).mainQ = s.mainQ := rfl
@[simp] theorem pinBank_notices (b : BankNo) (s : State) : (pinBank b s).notices = s.notices := rfl
@[simp] theorem pinBank_lanes (b : BankNo) (s : State) : (pinBank b s).lanes = s.lanes := rfl
@[simp] theorem pinBank_ctxs (b : BankNo) (s : State) : (pinBank b s).ctxs = s.ctxs := rfl
@[simp] theorem pinBank_parks (b : BankNo) (s : State) : (pinBank b s).parks = s.parks := rfl
@[simp] theorem pinBank_claims (b : BankNo) (s : State) : (pinBank b s).claims = s.claims := rfl
@[simp] theorem pinBank_accounts (b : BankNo) (s : State) : (pinBank b s).accounts = s.accounts := rfl
@[simp] theorem pinBank_authority (b : BankNo) (s : State) : (pinBank b s).authority = s.authority := rfl
@[simp] theorem pinBank_sched (b : BankNo) (s : State) : (pinBank b s).sched = s.sched := rfl
@[simp] theorem pinBank_streams (b : BankNo) (s : State) : (pinBank b s).streams = s.streams := rfl
@[simp] theorem pinBank_conds (b : BankNo) (s : State) : (pinBank b s).conds = s.conds := rfl
@[simp] theorem pinBank_config (b : BankNo) (s : State) : (pinBank b s).config = s.config := rfl
@[simp] theorem pinBank_device (b : BankNo) (s : State) : (pinBank b s).device = s.device := rfl

/-! ### releasePin -/

@[simp] theorem releasePin_pending (b : BankNo) (s : State) : (releasePin b s).pending = s.pending := by unfold releasePin; dsimp only; split <;> simp
@[simp] theorem releasePin_now (b : BankNo) (s : State) : (releasePin b s).now = s.now := by unfold releasePin; dsimp only; split <;> simp
@[simp] theorem releasePin_draws (b : BankNo) (s : State) : (releasePin b s).draws = s.draws := by unfold releasePin; dsimp only; split <;> simp
@[simp] theorem releasePin_link (b : BankNo) (s : State) : (releasePin b s).link = s.link := by unfold releasePin; dsimp only; split <;> simp
@[simp] theorem releasePin_pool (b : BankNo) (s : State) : (releasePin b s).pool = s.pool := by unfold releasePin; dsimp only; split <;> simp
@[simp] theorem releasePin_bulk (b : BankNo) (s : State) : (releasePin b s).bulk = s.bulk := by unfold releasePin; dsimp only; split <;> simp
@[simp] theorem releasePin_mainQ (b : BankNo) (s : State) : (releasePin b s).mainQ = s.mainQ := by unfold releasePin; dsimp only; split <;> simp
@[simp] theorem releasePin_lanes (b : BankNo) (s : State) : (releasePin b s).lanes = s.lanes := by unfold releasePin; dsimp only; split <;> simp
@[simp] theorem releasePin_ctxs (b : BankNo) (s : State) : (releasePin b s).ctxs = s.ctxs := by unfold releasePin; dsimp only; split <;> simp
@[simp] theorem releasePin_parks (b : BankNo) (s : State) : (releasePin b s).parks = s.parks := by unfold releasePin; dsimp only; split <;> simp
@[simp] theorem releasePin_claims (b : BankNo) (s : State) : (releasePin b s).claims = s.claims := by unfold releasePin; dsimp only; split <;> simp
@[simp] theorem releasePin_accounts (b : BankNo) (s : State) : (releasePin b s).accounts = s.accounts := by unfold releasePin; dsimp only; split <;> simp
@[simp] theorem releasePin_authority (b : BankNo) (s : State) : (releasePin b s).authority = s.authority := by unfold releasePin; dsimp only; split <;> simp
@[simp] theorem releasePin_sched (b : BankNo) (s : State) : (releasePin b s).sched = s.sched := by unfold releasePin; dsimp only; split <;> simp
@[simp] theorem releasePin_streams (b : BankNo) (s : State) : (releasePin b s).streams = s.streams := by unfold releasePin; dsimp only; split <;> simp
@[simp] theorem releasePin_config (b : BankNo) (s : State) : (releasePin b s).config = s.config := by unfold releasePin; dsimp only; split <;> simp
@[simp] theorem releasePin_device (b : BankNo) (s : State) : (releasePin b s).device = s.device := by unfold releasePin; dsimp only; split <;> simp

/-! ### releasePinOf -/

@[simp] theorem releasePinOf_pending (c : CtxNo) (s : State) : (releasePinOf c s).pending = s.pending := by unfold releasePinOf; split <;> simp
@[simp] theorem releasePinOf_now (c : CtxNo) (s : State) : (releasePinOf c s).now = s.now := by unfold releasePinOf; split <;> simp
@[simp] theorem releasePinOf_draws (c : CtxNo) (s : State) : (releasePinOf c s).draws = s.draws := by unfold releasePinOf; split <;> simp
@[simp] theorem releasePinOf_link (c : CtxNo) (s : State) : (releasePinOf c s).link = s.link := by unfold releasePinOf; split <;> simp
@[simp] theorem releasePinOf_pool (c : CtxNo) (s : State) : (releasePinOf c s).pool = s.pool := by unfold releasePinOf; split <;> simp
@[simp] theorem releasePinOf_bulk (c : CtxNo) (s : State) : (releasePinOf c s).bulk = s.bulk := by unfold releasePinOf; split <;> simp
@[simp] theorem releasePinOf_mainQ (c : CtxNo) (s : State) : (releasePinOf c s).mainQ = s.mainQ := by unfold releasePinOf; split <;> simp
@[simp] theorem releasePinOf_lanes (c : CtxNo) (s : State) : (releasePinOf c s).lanes = s.lanes := by unfold releasePinOf; split <;> simp
@[simp] theorem releasePinOf_ctxs (c : CtxNo) (s : State) : (releasePinOf c s).ctxs = s.ctxs := by unfold releasePinOf; split <;> simp
@[simp] theorem releasePinOf_parks (c : CtxNo) (s : State) : (releasePinOf c s).parks = s.parks := by unfold releasePinOf; split <;> simp
@[simp] theorem releasePinOf_claims (c : CtxNo) (s : State) : (releasePinOf c s).claims = s.claims := by unfold releasePinOf; split <;> simp
@[simp] theorem releasePinOf_accounts (c : CtxNo) (s : State) : (releasePinOf c s).accounts = s.accounts := by unfold releasePinOf; split <;> simp
@[simp] theorem releasePinOf_authority (c : CtxNo) (s : State) : (releasePinOf c s).authority = s.authority := by unfold releasePinOf; split <;> simp
@[simp] theorem releasePinOf_sched (c : CtxNo) (s : State) : (releasePinOf c s).sched = s.sched := by unfold releasePinOf; split <;> simp
@[simp] theorem releasePinOf_streams (c : CtxNo) (s : State) : (releasePinOf c s).streams = s.streams := by unfold releasePinOf; split <;> simp
@[simp] theorem releasePinOf_config (c : CtxNo) (s : State) : (releasePinOf c s).config = s.config := by unfold releasePinOf; split <;> simp
@[simp] theorem releasePinOf_device (c : CtxNo) (s : State) : (releasePinOf c s).device = s.device := by unfold releasePinOf; split <;> simp

/-! ### changeAccount -/

@[simp] theorem changeAccount_pending (i : Nat) (f : AccountEntry → AccountEntry) (s : State) : (changeAccount i f s).pending = s.pending := rfl
@[simp] theorem changeAccount_now (i : Nat) (f : AccountEntry → AccountEntry) (s : State) : (changeAccount i f s).now = s.now := rfl
@[simp] theorem changeAccount_draws (i : Nat) (f : AccountEntry → AccountEntry) (s : State) : (changeAccount i f s).draws = s.draws := rfl
@[simp] theorem changeAccount_link (i : Nat) (f : AccountEntry → AccountEntry) (s : State) : (changeAccount i f s).link = s.link := rfl
@[simp] theorem changeAccount_pool (i : Nat) (f : AccountEntry → AccountEntry) (s : State) : (changeAccount i f s).pool = s.pool := rfl
@[simp] theorem changeAccount_bulk (i : Nat) (f : AccountEntry → AccountEntry) (s : State) : (changeAccount i f s).bulk = s.bulk := rfl
@[simp] theorem changeAccount_mainQ (i : Nat) (f : AccountEntry → AccountEntry) (s : State) : (changeAccount i f s).mainQ = s.mainQ := rfl
@[simp] theorem changeAccount_notices (i : Nat) (f : AccountEntry → AccountEntry) (s : State) : (changeAccount i f s).notices = s.notices := rfl
@[simp] theorem changeAccount_lanes (i : Nat) (f : AccountEntry → AccountEntry) (s : State) : (changeAccount i f s).lanes = s.lanes := rfl
@[simp] theorem changeAccount_ctxs (i : Nat) (f : AccountEntry → AccountEntry) (s : State) : (changeAccount i f s).ctxs = s.ctxs := rfl
@[simp] theorem changeAccount_parks (i : Nat) (f : AccountEntry → AccountEntry) (s : State) : (changeAccount i f s).parks = s.parks := rfl
@[simp] theorem changeAccount_banks (i : Nat) (f : AccountEntry → AccountEntry) (s : State) : (changeAccount i f s).banks = s.banks := rfl
@[simp] theorem changeAccount_claims (i : Nat) (f : AccountEntry → AccountEntry) (s : State) : (changeAccount i f s).claims = s.claims := rfl
@[simp] theorem changeAccount_authority (i : Nat) (f : AccountEntry → AccountEntry) (s : State) : (changeAccount i f s).authority = s.authority := rfl
@[simp] theorem changeAccount_sched (i : Nat) (f : AccountEntry → AccountEntry) (s : State) : (changeAccount i f s).sched = s.sched := rfl
@[simp] theorem changeAccount_streams (i : Nat) (f : AccountEntry → AccountEntry) (s : State) : (changeAccount i f s).streams = s.streams := rfl
@[simp] theorem changeAccount_conds (i : Nat) (f : AccountEntry → AccountEntry) (s : State) : (changeAccount i f s).conds = s.conds := rfl
@[simp] theorem changeAccount_config (i : Nat) (f : AccountEntry → AccountEntry) (s : State) : (changeAccount i f s).config = s.config := rfl
@[simp] theorem changeAccount_device (i : Nat) (f : AccountEntry → AccountEntry) (s : State) : (changeAccount i f s).device = s.device := rfl

/-! ### removeReservation -/

@[simp] theorem removeReservation_pending (c : CtxNo) (s : State) : (removeReservation c s).pending = s.pending := rfl
@[simp] theorem removeReservation_now (c : CtxNo) (s : State) : (removeReservation c s).now = s.now := rfl
@[simp] theorem removeReservation_draws (c : CtxNo) (s : State) : (removeReservation c s).draws = s.draws := rfl
@[simp] theorem removeReservation_link (c : CtxNo) (s : State) : (removeReservation c s).link = s.link := rfl
@[simp] theorem removeReservation_pool (c : CtxNo) (s : State) : (removeReservation c s).pool = s.pool := rfl
@[simp] theorem removeReservation_bulk (c : CtxNo) (s : State) : (removeReservation c s).bulk = s.bulk := rfl
@[simp] theorem removeReservation_mainQ (c : CtxNo) (s : State) : (removeReservation c s).mainQ = s.mainQ := rfl
@[simp] theorem removeReservation_notices (c : CtxNo) (s : State) : (removeReservation c s).notices = s.notices := rfl
@[simp] theorem removeReservation_lanes (c : CtxNo) (s : State) : (removeReservation c s).lanes = s.lanes := rfl
@[simp] theorem removeReservation_ctxs (c : CtxNo) (s : State) : (removeReservation c s).ctxs = s.ctxs := rfl
@[simp] theorem removeReservation_parks (c : CtxNo) (s : State) : (removeReservation c s).parks = s.parks := rfl
@[simp] theorem removeReservation_banks (c : CtxNo) (s : State) : (removeReservation c s).banks = s.banks := rfl
@[simp] theorem removeReservation_claims (c : CtxNo) (s : State) : (removeReservation c s).claims = s.claims := rfl
@[simp] theorem removeReservation_authority (c : CtxNo) (s : State) : (removeReservation c s).authority = s.authority := rfl
@[simp] theorem removeReservation_sched (c : CtxNo) (s : State) : (removeReservation c s).sched = s.sched := rfl
@[simp] theorem removeReservation_streams (c : CtxNo) (s : State) : (removeReservation c s).streams = s.streams := rfl
@[simp] theorem removeReservation_conds (c : CtxNo) (s : State) : (removeReservation c s).conds = s.conds := rfl
@[simp] theorem removeReservation_config (c : CtxNo) (s : State) : (removeReservation c s).config = s.config := rfl
@[simp] theorem removeReservation_device (c : CtxNo) (s : State) : (removeReservation c s).device = s.device := rfl

/-! ### restartReservation -/

@[simp] theorem restartReservation_pending (c : CtxNo) (s : State) : (restartReservation c s).pending = s.pending := rfl
@[simp] theorem restartReservation_now (c : CtxNo) (s : State) : (restartReservation c s).now = s.now := rfl
@[simp] theorem restartReservation_draws (c : CtxNo) (s : State) : (restartReservation c s).draws = s.draws := rfl
@[simp] theorem restartReservation_link (c : CtxNo) (s : State) : (restartReservation c s).link = s.link := rfl
@[simp] theorem restartReservation_pool (c : CtxNo) (s : State) : (restartReservation c s).pool = s.pool := rfl
@[simp] theorem restartReservation_bulk (c : CtxNo) (s : State) : (restartReservation c s).bulk = s.bulk := rfl
@[simp] theorem restartReservation_mainQ (c : CtxNo) (s : State) : (restartReservation c s).mainQ = s.mainQ := rfl
@[simp] theorem restartReservation_notices (c : CtxNo) (s : State) : (restartReservation c s).notices = s.notices := rfl
@[simp] theorem restartReservation_lanes (c : CtxNo) (s : State) : (restartReservation c s).lanes = s.lanes := rfl
@[simp] theorem restartReservation_ctxs (c : CtxNo) (s : State) : (restartReservation c s).ctxs = s.ctxs := rfl
@[simp] theorem restartReservation_parks (c : CtxNo) (s : State) : (restartReservation c s).parks = s.parks := rfl
@[simp] theorem restartReservation_banks (c : CtxNo) (s : State) : (restartReservation c s).banks = s.banks := rfl
@[simp] theorem restartReservation_claims (c : CtxNo) (s : State) : (restartReservation c s).claims = s.claims := rfl
@[simp] theorem restartReservation_authority (c : CtxNo) (s : State) : (restartReservation c s).authority = s.authority := rfl
@[simp] theorem restartReservation_sched (c : CtxNo) (s : State) : (restartReservation c s).sched = s.sched := rfl
@[simp] theorem restartReservation_streams (c : CtxNo) (s : State) : (restartReservation c s).streams = s.streams := rfl
@[simp] theorem restartReservation_conds (c : CtxNo) (s : State) : (restartReservation c s).conds = s.conds := rfl
@[simp] theorem restartReservation_config (c : CtxNo) (s : State) : (restartReservation c s).config = s.config := rfl
@[simp] theorem restartReservation_device (c : CtxNo) (s : State) : (restartReservation c s).device = s.device := rfl

/-! ### touchReservation -/

@[simp] theorem touchReservation_pending (l : LaneNo) (s : State) : (touchReservation l s).pending = s.pending := by unfold touchReservation; split <;> rfl
@[simp] theorem touchReservation_now (l : LaneNo) (s : State) : (touchReservation l s).now = s.now := by unfold touchReservation; split <;> rfl
@[simp] theorem touchReservation_draws (l : LaneNo) (s : State) : (touchReservation l s).draws = s.draws := by unfold touchReservation; split <;> rfl
@[simp] theorem touchReservation_link (l : LaneNo) (s : State) : (touchReservation l s).link = s.link := by unfold touchReservation; split <;> rfl
@[simp] theorem touchReservation_pool (l : LaneNo) (s : State) : (touchReservation l s).pool = s.pool := by unfold touchReservation; split <;> rfl
@[simp] theorem touchReservation_bulk (l : LaneNo) (s : State) : (touchReservation l s).bulk = s.bulk := by unfold touchReservation; split <;> rfl
@[simp] theorem touchReservation_mainQ (l : LaneNo) (s : State) : (touchReservation l s).mainQ = s.mainQ := by unfold touchReservation; split <;> rfl
@[simp] theorem touchReservation_notices (l : LaneNo) (s : State) : (touchReservation l s).notices = s.notices := by unfold touchReservation; split <;> rfl
@[simp] theorem touchReservation_lanes (l : LaneNo) (s : State) : (touchReservation l s).lanes = s.lanes := by unfold touchReservation; split <;> rfl
@[simp] theorem touchReservation_ctxs (l : LaneNo) (s : State) : (touchReservation l s).ctxs = s.ctxs := by unfold touchReservation; split <;> rfl
@[simp] theorem touchReservation_parks (l : LaneNo) (s : State) : (touchReservation l s).parks = s.parks := by unfold touchReservation; split <;> rfl
@[simp] theorem touchReservation_banks (l : LaneNo) (s : State) : (touchReservation l s).banks = s.banks := by unfold touchReservation; split <;> rfl
@[simp] theorem touchReservation_claims (l : LaneNo) (s : State) : (touchReservation l s).claims = s.claims := by unfold touchReservation; split <;> rfl
@[simp] theorem touchReservation_authority (l : LaneNo) (s : State) : (touchReservation l s).authority = s.authority := by unfold touchReservation; split <;> rfl
@[simp] theorem touchReservation_sched (l : LaneNo) (s : State) : (touchReservation l s).sched = s.sched := by unfold touchReservation; split <;> rfl
@[simp] theorem touchReservation_streams (l : LaneNo) (s : State) : (touchReservation l s).streams = s.streams := by unfold touchReservation; split <;> rfl
@[simp] theorem touchReservation_conds (l : LaneNo) (s : State) : (touchReservation l s).conds = s.conds := by unfold touchReservation; split <;> rfl
@[simp] theorem touchReservation_config (l : LaneNo) (s : State) : (touchReservation l s).config = s.config := by unfold touchReservation; split <;> rfl
@[simp] theorem touchReservation_device (l : LaneNo) (s : State) : (touchReservation l s).device = s.device := by unfold touchReservation; split <;> rfl

/-! ### dropReference -/

@[simp] theorem dropReference_pending (i : Nat) (s : State) : (dropReference i s).pending = s.pending := rfl
@[simp] theorem dropReference_now (i : Nat) (s : State) : (dropReference i s).now = s.now := rfl
@[simp] theorem dropReference_draws (i : Nat) (s : State) : (dropReference i s).draws = s.draws := rfl
@[simp] theorem dropReference_link (i : Nat) (s : State) : (dropReference i s).link = s.link := rfl
@[simp] theorem dropReference_pool (i : Nat) (s : State) : (dropReference i s).pool = s.pool := rfl
@[simp] theorem dropReference_bulk (i : Nat) (s : State) : (dropReference i s).bulk = s.bulk := rfl
@[simp] theorem dropReference_mainQ (i : Nat) (s : State) : (dropReference i s).mainQ = s.mainQ := rfl
@[simp] theorem dropReference_notices (i : Nat) (s : State) : (dropReference i s).notices = s.notices := rfl
@[simp] theorem dropReference_lanes (i : Nat) (s : State) : (dropReference i s).lanes = s.lanes := rfl
@[simp] theorem dropReference_ctxs (i : Nat) (s : State) : (dropReference i s).ctxs = s.ctxs := rfl
@[simp] theorem dropReference_parks (i : Nat) (s : State) : (dropReference i s).parks = s.parks := rfl
@[simp] theorem dropReference_banks (i : Nat) (s : State) : (dropReference i s).banks = s.banks := rfl
@[simp] theorem dropReference_claims (i : Nat) (s : State) : (dropReference i s).claims = s.claims := rfl
@[simp] theorem dropReference_authority (i : Nat) (s : State) : (dropReference i s).authority = s.authority := rfl
@[simp] theorem dropReference_sched (i : Nat) (s : State) : (dropReference i s).sched = s.sched := rfl
@[simp] theorem dropReference_streams (i : Nat) (s : State) : (dropReference i s).streams = s.streams := rfl
@[simp] theorem dropReference_conds (i : Nat) (s : State) : (dropReference i s).conds = s.conds := rfl
@[simp] theorem dropReference_config (i : Nat) (s : State) : (dropReference i s).config = s.config := rfl
@[simp] theorem dropReference_device (i : Nat) (s : State) : (dropReference i s).device = s.device := rfl

/-! ### dropReferenceOf -/

@[simp] theorem dropReferenceOf_pending (c : CtxNo) (s : State) : (dropReferenceOf c s).pending = s.pending := by unfold dropReferenceOf; split <;> rfl
@[simp] theorem dropReferenceOf_now (c : CtxNo) (s : State) : (dropReferenceOf c s).now = s.now := by unfold dropReferenceOf; split <;> rfl
@[simp] theorem dropReferenceOf_draws (c : CtxNo) (s : State) : (dropReferenceOf c s).draws = s.draws := by unfold dropReferenceOf; split <;> rfl
@[simp] theorem dropReferenceOf_link (c : CtxNo) (s : State) : (dropReferenceOf c s).link = s.link := by unfold dropReferenceOf; split <;> rfl
@[simp] theorem dropReferenceOf_pool (c : CtxNo) (s : State) : (dropReferenceOf c s).pool = s.pool := by unfold dropReferenceOf; split <;> rfl
@[simp] theorem dropReferenceOf_bulk (c : CtxNo) (s : State) : (dropReferenceOf c s).bulk = s.bulk := by unfold dropReferenceOf; split <;> rfl
@[simp] theorem dropReferenceOf_mainQ (c : CtxNo) (s : State) : (dropReferenceOf c s).mainQ = s.mainQ := by unfold dropReferenceOf; split <;> rfl
@[simp] theorem dropReferenceOf_notices (c : CtxNo) (s : State) : (dropReferenceOf c s).notices = s.notices := by unfold dropReferenceOf; split <;> rfl
@[simp] theorem dropReferenceOf_lanes (c : CtxNo) (s : State) : (dropReferenceOf c s).lanes = s.lanes := by unfold dropReferenceOf; split <;> rfl
@[simp] theorem dropReferenceOf_ctxs (c : CtxNo) (s : State) : (dropReferenceOf c s).ctxs = s.ctxs := by unfold dropReferenceOf; split <;> rfl
@[simp] theorem dropReferenceOf_parks (c : CtxNo) (s : State) : (dropReferenceOf c s).parks = s.parks := by unfold dropReferenceOf; split <;> rfl
@[simp] theorem dropReferenceOf_banks (c : CtxNo) (s : State) : (dropReferenceOf c s).banks = s.banks := by unfold dropReferenceOf; split <;> rfl
@[simp] theorem dropReferenceOf_claims (c : CtxNo) (s : State) : (dropReferenceOf c s).claims = s.claims := by unfold dropReferenceOf; split <;> rfl
@[simp] theorem dropReferenceOf_authority (c : CtxNo) (s : State) : (dropReferenceOf c s).authority = s.authority := by unfold dropReferenceOf; split <;> rfl
@[simp] theorem dropReferenceOf_sched (c : CtxNo) (s : State) : (dropReferenceOf c s).sched = s.sched := by unfold dropReferenceOf; split <;> rfl
@[simp] theorem dropReferenceOf_streams (c : CtxNo) (s : State) : (dropReferenceOf c s).streams = s.streams := by unfold dropReferenceOf; split <;> rfl
@[simp] theorem dropReferenceOf_conds (c : CtxNo) (s : State) : (dropReferenceOf c s).conds = s.conds := by unfold dropReferenceOf; split <;> rfl
@[simp] theorem dropReferenceOf_config (c : CtxNo) (s : State) : (dropReferenceOf c s).config = s.config := by unfold dropReferenceOf; split <;> rfl
@[simp] theorem dropReferenceOf_device (c : CtxNo) (s : State) : (dropReferenceOf c s).device = s.device := by unfold dropReferenceOf; split <;> rfl

/-! ### A fold of revision increases -/

@[simp] theorem bumpAll_pending (cs : List CtxNo) (s : State) :
    (cs.foldl (fun s c => bumpRevision c s) s).pending = s.pending := by
  induction cs generalizing s with
  | nil => rfl
  | cons c cs ih => simp [ih]
@[simp] theorem bumpAll_now (cs : List CtxNo) (s : State) :
    (cs.foldl (fun s c => bumpRevision c s) s).now = s.now := by
  induction cs generalizing s with
  | nil => rfl
  | cons c cs ih => simp [ih]
@[simp] theorem bumpAll_draws (cs : List CtxNo) (s : State) :
    (cs.foldl (fun s c => bumpRevision c s) s).draws = s.draws := by
  induction cs generalizing s with
  | nil => rfl
  | cons c cs ih => simp [ih]
@[simp] theorem bumpAll_link (cs : List CtxNo) (s : State) :
    (cs.foldl (fun s c => bumpRevision c s) s).link = s.link := by
  induction cs generalizing s with
  | nil => rfl
  | cons c cs ih => simp [ih]
@[simp] theorem bumpAll_pool (cs : List CtxNo) (s : State) :
    (cs.foldl (fun s c => bumpRevision c s) s).pool = s.pool := by
  induction cs generalizing s with
  | nil => rfl
  | cons c cs ih => simp [ih]
@[simp] theorem bumpAll_bulk (cs : List CtxNo) (s : State) :
    (cs.foldl (fun s c => bumpRevision c s) s).bulk = s.bulk := by
  induction cs generalizing s with
  | nil => rfl
  | cons c cs ih => simp [ih]
@[simp] theorem bumpAll_mainQ (cs : List CtxNo) (s : State) :
    (cs.foldl (fun s c => bumpRevision c s) s).mainQ = s.mainQ := by
  induction cs generalizing s with
  | nil => rfl
  | cons c cs ih => simp [ih]
@[simp] theorem bumpAll_notices (cs : List CtxNo) (s : State) :
    (cs.foldl (fun s c => bumpRevision c s) s).notices = s.notices := by
  induction cs generalizing s with
  | nil => rfl
  | cons c cs ih => simp [ih]
@[simp] theorem bumpAll_parks (cs : List CtxNo) (s : State) :
    (cs.foldl (fun s c => bumpRevision c s) s).parks = s.parks := by
  induction cs generalizing s with
  | nil => rfl
  | cons c cs ih => simp [ih]
@[simp] theorem bumpAll_banks (cs : List CtxNo) (s : State) :
    (cs.foldl (fun s c => bumpRevision c s) s).banks = s.banks := by
  induction cs generalizing s with
  | nil => rfl
  | cons c cs ih => simp [ih]
@[simp] theorem bumpAll_claims (cs : List CtxNo) (s : State) :
    (cs.foldl (fun s c => bumpRevision c s) s).claims = s.claims := by
  induction cs generalizing s with
  | nil => rfl
  | cons c cs ih => simp [ih]
@[simp] theorem bumpAll_accounts (cs : List CtxNo) (s : State) :
    (cs.foldl (fun s c => bumpRevision c s) s).accounts = s.accounts := by
  induction cs generalizing s with
  | nil => rfl
  | cons c cs ih => simp [ih]
@[simp] theorem bumpAll_authority (cs : List CtxNo) (s : State) :
    (cs.foldl (fun s c => bumpRevision c s) s).authority = s.authority := by
  induction cs generalizing s with
  | nil => rfl
  | cons c cs ih => simp [ih]
@[simp] theorem bumpAll_sched (cs : List CtxNo) (s : State) :
    (cs.foldl (fun s c => bumpRevision c s) s).sched = s.sched := by
  induction cs generalizing s with
  | nil => rfl
  | cons c cs ih => simp [ih]
@[simp] theorem bumpAll_streams (cs : List CtxNo) (s : State) :
    (cs.foldl (fun s c => bumpRevision c s) s).streams = s.streams := by
  induction cs generalizing s with
  | nil => rfl
  | cons c cs ih => simp [ih]
@[simp] theorem bumpAll_conds (cs : List CtxNo) (s : State) :
    (cs.foldl (fun s c => bumpRevision c s) s).conds = s.conds := by
  induction cs generalizing s with
  | nil => rfl
  | cons c cs ih => simp [ih]
@[simp] theorem bumpAll_config (cs : List CtxNo) (s : State) :
    (cs.foldl (fun s c => bumpRevision c s) s).config = s.config := by
  induction cs generalizing s with
  | nil => rfl
  | cons c cs ih => simp [ih]
@[simp] theorem bumpAll_device (cs : List CtxNo) (s : State) :
    (cs.foldl (fun s c => bumpRevision c s) s).device = s.device := by
  induction cs generalizing s with
  | nil => rfl
  | cons c cs ih => simp [ih]

/-! ### cutRule -/

@[simp] theorem cutRule_pending (i : Nat) (s : State) : (cutRule i s).1.pending = s.pending := by
  unfold cutRule; split
  · rfl
  · dsimp only; split <;> simp
@[simp] theorem cutRule_now (i : Nat) (s : State) : (cutRule i s).1.now = s.now := by
  unfold cutRule; split
  · rfl
  · dsimp only; split <;> simp
@[simp] theorem cutRule_draws (i : Nat) (s : State) : (cutRule i s).1.draws = s.draws := by
  unfold cutRule; split
  · rfl
  · dsimp only; split <;> simp
@[simp] theorem cutRule_link (i : Nat) (s : State) : (cutRule i s).1.link = s.link := by
  unfold cutRule; split
  · rfl
  · dsimp only; split <;> simp
@[simp] theorem cutRule_pool (i : Nat) (s : State) : (cutRule i s).1.pool = s.pool := by
  unfold cutRule; split
  · rfl
  · dsimp only; split <;> simp
@[simp] theorem cutRule_bulk (i : Nat) (s : State) : (cutRule i s).1.bulk = s.bulk := by
  unfold cutRule; split
  · rfl
  · dsimp only; split <;> simp
@[simp] theorem cutRule_mainQ (i : Nat) (s : State) : (cutRule i s).1.mainQ = s.mainQ := by
  unfold cutRule; split
  · rfl
  · dsimp only; split <;> simp
@[simp] theorem cutRule_parks (i : Nat) (s : State) : (cutRule i s).1.parks = s.parks := by
  unfold cutRule; split
  · rfl
  · dsimp only; split <;> simp
@[simp] theorem cutRule_banks (i : Nat) (s : State) : (cutRule i s).1.banks = s.banks := by
  unfold cutRule; split
  · rfl
  · dsimp only; split <;> simp
@[simp] theorem cutRule_claims (i : Nat) (s : State) : (cutRule i s).1.claims = s.claims := by
  unfold cutRule; split
  · rfl
  · dsimp only; split <;> simp
@[simp] theorem cutRule_authority (i : Nat) (s : State) : (cutRule i s).1.authority = s.authority := by
  unfold cutRule; split
  · rfl
  · dsimp only; split <;> simp
@[simp] theorem cutRule_sched (i : Nat) (s : State) : (cutRule i s).1.sched = s.sched := by
  unfold cutRule; split
  · rfl
  · dsimp only; split <;> simp
@[simp] theorem cutRule_streams (i : Nat) (s : State) : (cutRule i s).1.streams = s.streams := by
  unfold cutRule; split
  · rfl
  · dsimp only; split <;> simp
@[simp] theorem cutRule_config (i : Nat) (s : State) : (cutRule i s).1.config = s.config := by
  unfold cutRule; split
  · rfl
  · dsimp only; split <;> simp
@[simp] theorem cutRule_device (i : Nat) (s : State) : (cutRule i s).1.device = s.device := by
  unfold cutRule; split
  · rfl
  · dsimp only; split <;> simp

/-! ### removeClaims -/

@[simp] theorem removeClaims_pending (p : ClaimEntry → Bool) (s : State) : (removeClaims p s).pending = s.pending := by unfold removeClaims; dsimp only; split <;> rfl
@[simp] theorem removeClaims_now (p : ClaimEntry → Bool) (s : State) : (removeClaims p s).now = s.now := by unfold removeClaims; dsimp only; split <;> rfl
@[simp] theorem removeClaims_draws (p : ClaimEntry → Bool) (s : State) : (removeClaims p s).draws = s.draws := by unfold removeClaims; dsimp only; split <;> rfl
@[simp] theorem removeClaims_link (p : ClaimEntry → Bool) (s : State) : (removeClaims p s).link = s.link := by unfold removeClaims; dsimp only; split <;> rfl
@[simp] theorem removeClaims_pool (p : ClaimEntry → Bool) (s : State) : (removeClaims p s).pool = s.pool := by unfold removeClaims; dsimp only; split <;> rfl
@[simp] theorem removeClaims_bulk (p : ClaimEntry → Bool) (s : State) : (removeClaims p s).bulk = s.bulk := by unfold removeClaims; dsimp only; split <;> rfl
@[simp] theorem removeClaims_mainQ (p : ClaimEntry → Bool) (s : State) : (removeClaims p s).mainQ = s.mainQ := by unfold removeClaims; dsimp only; split <;> rfl
@[simp] theorem removeClaims_notices (p : ClaimEntry → Bool) (s : State) : (removeClaims p s).notices = s.notices := by unfold removeClaims; dsimp only; split <;> rfl
@[simp] theorem removeClaims_lanes (p : ClaimEntry → Bool) (s : State) : (removeClaims p s).lanes = s.lanes := by unfold removeClaims; dsimp only; split <;> rfl
@[simp] theorem removeClaims_ctxs (p : ClaimEntry → Bool) (s : State) : (removeClaims p s).ctxs = s.ctxs := by unfold removeClaims; dsimp only; split <;> rfl
@[simp] theorem removeClaims_parks (p : ClaimEntry → Bool) (s : State) : (removeClaims p s).parks = s.parks := by unfold removeClaims; dsimp only; split <;> rfl
@[simp] theorem removeClaims_banks (p : ClaimEntry → Bool) (s : State) : (removeClaims p s).banks = s.banks := by unfold removeClaims; dsimp only; split <;> rfl
@[simp] theorem removeClaims_accounts (p : ClaimEntry → Bool) (s : State) : (removeClaims p s).accounts = s.accounts := by unfold removeClaims; dsimp only; split <;> rfl
@[simp] theorem removeClaims_authority (p : ClaimEntry → Bool) (s : State) : (removeClaims p s).authority = s.authority := by unfold removeClaims; dsimp only; split <;> rfl
@[simp] theorem removeClaims_sched (p : ClaimEntry → Bool) (s : State) : (removeClaims p s).sched = s.sched := by unfold removeClaims; dsimp only; split <;> rfl
@[simp] theorem removeClaims_streams (p : ClaimEntry → Bool) (s : State) : (removeClaims p s).streams = s.streams := by unfold removeClaims; dsimp only; split <;> rfl
@[simp] theorem removeClaims_config (p : ClaimEntry → Bool) (s : State) : (removeClaims p s).config = s.config := by unfold removeClaims; dsimp only; split <;> rfl
@[simp] theorem removeClaims_device (p : ClaimEntry → Bool) (s : State) : (removeClaims p s).device = s.device := by unfold removeClaims; dsimp only; split <;> rfl

/-! ### removeClaimsOf -/

@[simp] theorem removeClaimsOf_pending (c : CtxNo) (s : State) : (removeClaimsOf c s).pending = s.pending := by simp [removeClaimsOf]
@[simp] theorem removeClaimsOf_now (c : CtxNo) (s : State) : (removeClaimsOf c s).now = s.now := by simp [removeClaimsOf]
@[simp] theorem removeClaimsOf_draws (c : CtxNo) (s : State) : (removeClaimsOf c s).draws = s.draws := by simp [removeClaimsOf]
@[simp] theorem removeClaimsOf_link (c : CtxNo) (s : State) : (removeClaimsOf c s).link = s.link := by simp [removeClaimsOf]
@[simp] theorem removeClaimsOf_pool (c : CtxNo) (s : State) : (removeClaimsOf c s).pool = s.pool := by simp [removeClaimsOf]
@[simp] theorem removeClaimsOf_bulk (c : CtxNo) (s : State) : (removeClaimsOf c s).bulk = s.bulk := by simp [removeClaimsOf]
@[simp] theorem removeClaimsOf_mainQ (c : CtxNo) (s : State) : (removeClaimsOf c s).mainQ = s.mainQ := by simp [removeClaimsOf]
@[simp] theorem removeClaimsOf_notices (c : CtxNo) (s : State) : (removeClaimsOf c s).notices = s.notices := by simp [removeClaimsOf]
@[simp] theorem removeClaimsOf_lanes (c : CtxNo) (s : State) : (removeClaimsOf c s).lanes = s.lanes := by simp [removeClaimsOf]
@[simp] theorem removeClaimsOf_ctxs (c : CtxNo) (s : State) : (removeClaimsOf c s).ctxs = s.ctxs := by simp [removeClaimsOf]
@[simp] theorem removeClaimsOf_parks (c : CtxNo) (s : State) : (removeClaimsOf c s).parks = s.parks := by simp [removeClaimsOf]
@[simp] theorem removeClaimsOf_banks (c : CtxNo) (s : State) : (removeClaimsOf c s).banks = s.banks := by simp [removeClaimsOf]
@[simp] theorem removeClaimsOf_accounts (c : CtxNo) (s : State) : (removeClaimsOf c s).accounts = s.accounts := by simp [removeClaimsOf]
@[simp] theorem removeClaimsOf_authority (c : CtxNo) (s : State) : (removeClaimsOf c s).authority = s.authority := by simp [removeClaimsOf]
@[simp] theorem removeClaimsOf_sched (c : CtxNo) (s : State) : (removeClaimsOf c s).sched = s.sched := by simp [removeClaimsOf]
@[simp] theorem removeClaimsOf_streams (c : CtxNo) (s : State) : (removeClaimsOf c s).streams = s.streams := by simp [removeClaimsOf]
@[simp] theorem removeClaimsOf_config (c : CtxNo) (s : State) : (removeClaimsOf c s).config = s.config := by simp [removeClaimsOf]
@[simp] theorem removeClaimsOf_device (c : CtxNo) (s : State) : (removeClaimsOf c s).device = s.device := by simp [removeClaimsOf]

/-! ### spendClaimsOf -/

@[simp] theorem spendClaimsOf_pending (c : CtxNo) (s : State) : (spendClaimsOf c s).pending = s.pending := by unfold spendClaimsOf; dsimp only; split <;> rfl
@[simp] theorem spendClaimsOf_now (c : CtxNo) (s : State) : (spendClaimsOf c s).now = s.now := by unfold spendClaimsOf; dsimp only; split <;> rfl
@[simp] theorem spendClaimsOf_draws (c : CtxNo) (s : State) : (spendClaimsOf c s).draws = s.draws := by unfold spendClaimsOf; dsimp only; split <;> rfl
@[simp] theorem spendClaimsOf_link (c : CtxNo) (s : State) : (spendClaimsOf c s).link = s.link := by unfold spendClaimsOf; dsimp only; split <;> rfl
@[simp] theorem spendClaimsOf_pool (c : CtxNo) (s : State) : (spendClaimsOf c s).pool = s.pool := by unfold spendClaimsOf; dsimp only; split <;> rfl
@[simp] theorem spendClaimsOf_bulk (c : CtxNo) (s : State) : (spendClaimsOf c s).bulk = s.bulk := by unfold spendClaimsOf; dsimp only; split <;> rfl
@[simp] theorem spendClaimsOf_mainQ (c : CtxNo) (s : State) : (spendClaimsOf c s).mainQ = s.mainQ := by unfold spendClaimsOf; dsimp only; split <;> rfl
@[simp] theorem spendClaimsOf_notices (c : CtxNo) (s : State) : (spendClaimsOf c s).notices = s.notices := by unfold spendClaimsOf; dsimp only; split <;> rfl
@[simp] theorem spendClaimsOf_lanes (c : CtxNo) (s : State) : (spendClaimsOf c s).lanes = s.lanes := by unfold spendClaimsOf; dsimp only; split <;> rfl
@[simp] theorem spendClaimsOf_ctxs (c : CtxNo) (s : State) : (spendClaimsOf c s).ctxs = s.ctxs := by unfold spendClaimsOf; dsimp only; split <;> rfl
@[simp] theorem spendClaimsOf_parks (c : CtxNo) (s : State) : (spendClaimsOf c s).parks = s.parks := by unfold spendClaimsOf; dsimp only; split <;> rfl
@[simp] theorem spendClaimsOf_banks (c : CtxNo) (s : State) : (spendClaimsOf c s).banks = s.banks := by unfold spendClaimsOf; dsimp only; split <;> rfl
@[simp] theorem spendClaimsOf_accounts (c : CtxNo) (s : State) : (spendClaimsOf c s).accounts = s.accounts := by unfold spendClaimsOf; dsimp only; split <;> rfl
@[simp] theorem spendClaimsOf_authority (c : CtxNo) (s : State) : (spendClaimsOf c s).authority = s.authority := by unfold spendClaimsOf; dsimp only; split <;> rfl
@[simp] theorem spendClaimsOf_sched (c : CtxNo) (s : State) : (spendClaimsOf c s).sched = s.sched := by unfold spendClaimsOf; dsimp only; split <;> rfl
@[simp] theorem spendClaimsOf_streams (c : CtxNo) (s : State) : (spendClaimsOf c s).streams = s.streams := by unfold spendClaimsOf; dsimp only; split <;> rfl
@[simp] theorem spendClaimsOf_config (c : CtxNo) (s : State) : (spendClaimsOf c s).config = s.config := by unfold spendClaimsOf; dsimp only; split <;> rfl
@[simp] theorem spendClaimsOf_device (c : CtxNo) (s : State) : (spendClaimsOf c s).device = s.device := by unfold spendClaimsOf; dsimp only; split <;> rfl

/-! ### parkBasket -/

@[simp] theorem parkBasket_pending (l : LaneNo) (c : CtxNo) (s : State) : (parkBasket l c s).1.pending = s.pending := by
  unfold parkBasket; dsimp only; split <;> simp
@[simp] theorem parkBasket_now (l : LaneNo) (c : CtxNo) (s : State) : (parkBasket l c s).1.now = s.now := by
  unfold parkBasket; dsimp only; split <;> simp
@[simp] theorem parkBasket_draws (l : LaneNo) (c : CtxNo) (s : State) : (parkBasket l c s).1.draws = s.draws := by
  unfold parkBasket; dsimp only; split <;> simp
@[simp] theorem parkBasket_link (l : LaneNo) (c : CtxNo) (s : State) : (parkBasket l c s).1.link = s.link := by
  unfold parkBasket; dsimp only; split <;> simp
@[simp] theorem parkBasket_pool (l : LaneNo) (c : CtxNo) (s : State) : (parkBasket l c s).1.pool = s.pool := by
  unfold parkBasket; dsimp only; split <;> simp
@[simp] theorem parkBasket_bulk (l : LaneNo) (c : CtxNo) (s : State) : (parkBasket l c s).1.bulk = s.bulk := by
  unfold parkBasket; dsimp only; split <;> simp
@[simp] theorem parkBasket_mainQ (l : LaneNo) (c : CtxNo) (s : State) : (parkBasket l c s).1.mainQ = s.mainQ := by
  unfold parkBasket; dsimp only; split <;> simp
@[simp] theorem parkBasket_claims (l : LaneNo) (c : CtxNo) (s : State) : (parkBasket l c s).1.claims = s.claims := by
  unfold parkBasket; dsimp only; split <;> simp
@[simp] theorem parkBasket_authority (l : LaneNo) (c : CtxNo) (s : State) : (parkBasket l c s).1.authority = s.authority := by
  unfold parkBasket; dsimp only; split <;> simp
@[simp] theorem parkBasket_streams (l : LaneNo) (c : CtxNo) (s : State) : (parkBasket l c s).1.streams = s.streams := by
  unfold parkBasket; dsimp only; split <;> simp
@[simp] theorem parkBasket_config (l : LaneNo) (c : CtxNo) (s : State) : (parkBasket l c s).1.config = s.config := by
  unfold parkBasket; dsimp only; split <;> simp
@[simp] theorem parkBasket_device (l : LaneNo) (c : CtxNo) (s : State) : (parkBasket l c s).1.device = s.device := by
  unfold parkBasket; dsimp only; split <;> simp

/-! ### makeHold -/

@[simp] theorem makeHold_pending (h : HoldScope) (n : Nat) (s : State) : (makeHold h n s).pending = s.pending := rfl
@[simp] theorem makeHold_now (h : HoldScope) (n : Nat) (s : State) : (makeHold h n s).now = s.now := rfl
@[simp] theorem makeHold_draws (h : HoldScope) (n : Nat) (s : State) : (makeHold h n s).draws = s.draws := rfl
@[simp] theorem makeHold_pool (h : HoldScope) (n : Nat) (s : State) : (makeHold h n s).pool = s.pool := rfl
@[simp] theorem makeHold_bulk (h : HoldScope) (n : Nat) (s : State) : (makeHold h n s).bulk = s.bulk := rfl
@[simp] theorem makeHold_mainQ (h : HoldScope) (n : Nat) (s : State) : (makeHold h n s).mainQ = s.mainQ := rfl
@[simp] theorem makeHold_notices (h : HoldScope) (n : Nat) (s : State) : (makeHold h n s).notices = s.notices := rfl
@[simp] theorem makeHold_lanes (h : HoldScope) (n : Nat) (s : State) : (makeHold h n s).lanes = s.lanes := rfl
@[simp] theorem makeHold_ctxs (h : HoldScope) (n : Nat) (s : State) : (makeHold h n s).ctxs = s.ctxs := rfl
@[simp] theorem makeHold_parks (h : HoldScope) (n : Nat) (s : State) : (makeHold h n s).parks = s.parks := rfl
@[simp] theorem makeHold_banks (h : HoldScope) (n : Nat) (s : State) : (makeHold h n s).banks = s.banks := rfl
@[simp] theorem makeHold_claims (h : HoldScope) (n : Nat) (s : State) : (makeHold h n s).claims = s.claims := rfl
@[simp] theorem makeHold_accounts (h : HoldScope) (n : Nat) (s : State) : (makeHold h n s).accounts = s.accounts := rfl
@[simp] theorem makeHold_authority (h : HoldScope) (n : Nat) (s : State) : (makeHold h n s).authority = s.authority := rfl
@[simp] theorem makeHold_sched (h : HoldScope) (n : Nat) (s : State) : (makeHold h n s).sched = s.sched := rfl
@[simp] theorem makeHold_streams (h : HoldScope) (n : Nat) (s : State) : (makeHold h n s).streams = s.streams := rfl
@[simp] theorem makeHold_conds (h : HoldScope) (n : Nat) (s : State) : (makeHold h n s).conds = s.conds := rfl
@[simp] theorem makeHold_config (h : HoldScope) (n : Nat) (s : State) : (makeHold h n s).config = s.config := rfl
@[simp] theorem makeHold_device (h : HoldScope) (n : Nat) (s : State) : (makeHold h n s).device = s.device := rfl

/-! ### clearCongestion -/

@[simp] theorem clearCongestion_pending (q : QueueId) (s : State) : (clearCongestion q s).pending = s.pending := by
  unfold clearCongestion; dsimp only; split
  · split <;> simp
  · rfl
@[simp] theorem clearCongestion_now (q : QueueId) (s : State) : (clearCongestion q s).now = s.now := by
  unfold clearCongestion; dsimp only; split
  · split <;> simp
  · rfl
@[simp] theorem clearCongestion_draws (q : QueueId) (s : State) : (clearCongestion q s).draws = s.draws := by
  unfold clearCongestion; dsimp only; split
  · split <;> simp
  · rfl
@[simp] theorem clearCongestion_mainQ (q : QueueId) (s : State) : (clearCongestion q s).mainQ = s.mainQ := by
  unfold clearCongestion; dsimp only; split
  · split <;> simp
  · rfl
@[simp] theorem clearCongestion_notices (q : QueueId) (s : State) : (clearCongestion q s).notices = s.notices := by
  unfold clearCongestion; dsimp only; split
  · split <;> simp
  · rfl
@[simp] theorem clearCongestion_lanes (q : QueueId) (s : State) : (clearCongestion q s).lanes = s.lanes := by
  unfold clearCongestion; dsimp only; split
  · split <;> simp
  · rfl
@[simp] theorem clearCongestion_ctxs (q : QueueId) (s : State) : (clearCongestion q s).ctxs = s.ctxs := by
  unfold clearCongestion; dsimp only; split
  · split <;> simp
  · rfl
@[simp] theorem clearCongestion_parks (q : QueueId) (s : State) : (clearCongestion q s).parks = s.parks := by
  unfold clearCongestion; dsimp only; split
  · split <;> simp
  · rfl
@[simp] theorem clearCongestion_banks (q : QueueId) (s : State) : (clearCongestion q s).banks = s.banks := by
  unfold clearCongestion; dsimp only; split
  · split <;> simp
  · rfl
@[simp] theorem clearCongestion_claims (q : QueueId) (s : State) : (clearCongestion q s).claims = s.claims := by
  unfold clearCongestion; dsimp only; split
  · split <;> simp
  · rfl
@[simp] theorem clearCongestion_accounts (q : QueueId) (s : State) : (clearCongestion q s).accounts = s.accounts := by
  unfold clearCongestion; dsimp only; split
  · split <;> simp
  · rfl
@[simp] theorem clearCongestion_authority (q : QueueId) (s : State) : (clearCongestion q s).authority = s.authority := by
  unfold clearCongestion; dsimp only; split
  · split <;> simp
  · rfl
@[simp] theorem clearCongestion_sched (q : QueueId) (s : State) : (clearCongestion q s).sched = s.sched := by
  unfold clearCongestion; dsimp only; split
  · split <;> simp
  · rfl
@[simp] theorem clearCongestion_streams (q : QueueId) (s : State) : (clearCongestion q s).streams = s.streams := by
  unfold clearCongestion; dsimp only; split
  · split <;> simp
  · rfl
@[simp] theorem clearCongestion_conds (q : QueueId) (s : State) : (clearCongestion q s).conds = s.conds := by
  unfold clearCongestion; dsimp only; split
  · split <;> simp
  · rfl
@[simp] theorem clearCongestion_config (q : QueueId) (s : State) : (clearCongestion q s).config = s.config := by
  unfold clearCongestion; dsimp only; split
  · split <;> simp
  · rfl
@[simp] theorem clearCongestion_device (q : QueueId) (s : State) : (clearCongestion q s).device = s.device := by
  unfold clearCongestion; dsimp only; split
  · split <;> simp
  · rfl

/-! ### removeFrame -/

@[simp] theorem removeFrame_pending (q : QueueId) (f : Frame) (s : State) : (removeFrame q f s).pending = s.pending := by simp [removeFrame]
@[simp] theorem removeFrame_now (q : QueueId) (f : Frame) (s : State) : (removeFrame q f s).now = s.now := by simp [removeFrame]
@[simp] theorem removeFrame_draws (q : QueueId) (f : Frame) (s : State) : (removeFrame q f s).draws = s.draws := by simp [removeFrame]
@[simp] theorem removeFrame_mainQ (q : QueueId) (f : Frame) (s : State) : (removeFrame q f s).mainQ = s.mainQ := by simp [removeFrame]
@[simp] theorem removeFrame_notices (q : QueueId) (f : Frame) (s : State) : (removeFrame q f s).notices = s.notices := by simp [removeFrame]
@[simp] theorem removeFrame_lanes (q : QueueId) (f : Frame) (s : State) : (removeFrame q f s).lanes = s.lanes := by simp [removeFrame]
@[simp] theorem removeFrame_ctxs (q : QueueId) (f : Frame) (s : State) : (removeFrame q f s).ctxs = s.ctxs := by simp [removeFrame]
@[simp] theorem removeFrame_parks (q : QueueId) (f : Frame) (s : State) : (removeFrame q f s).parks = s.parks := by simp [removeFrame]
@[simp] theorem removeFrame_banks (q : QueueId) (f : Frame) (s : State) : (removeFrame q f s).banks = s.banks := by simp [removeFrame]
@[simp] theorem removeFrame_claims (q : QueueId) (f : Frame) (s : State) : (removeFrame q f s).claims = s.claims := by simp [removeFrame]
@[simp] theorem removeFrame_accounts (q : QueueId) (f : Frame) (s : State) : (removeFrame q f s).accounts = s.accounts := by simp [removeFrame]
@[simp] theorem removeFrame_authority (q : QueueId) (f : Frame) (s : State) : (removeFrame q f s).authority = s.authority := by simp [removeFrame]
@[simp] theorem removeFrame_sched (q : QueueId) (f : Frame) (s : State) : (removeFrame q f s).sched = s.sched := by simp [removeFrame]
@[simp] theorem removeFrame_streams (q : QueueId) (f : Frame) (s : State) : (removeFrame q f s).streams = s.streams := by simp [removeFrame]
@[simp] theorem removeFrame_conds (q : QueueId) (f : Frame) (s : State) : (removeFrame q f s).conds = s.conds := by simp [removeFrame]
@[simp] theorem removeFrame_config (q : QueueId) (f : Frame) (s : State) : (removeFrame q f s).config = s.config := by simp [removeFrame]
@[simp] theorem removeFrame_device (q : QueueId) (f : Frame) (s : State) : (removeFrame q f s).device = s.device := by simp [removeFrame]

/-! ### useSlot -/

@[simp] theorem useSlot_pending (c : Claim) (s : State) : (useSlot c s).pending = s.pending := rfl
@[simp] theorem useSlot_now (c : Claim) (s : State) : (useSlot c s).now = s.now := rfl
@[simp] theorem useSlot_draws (c : Claim) (s : State) : (useSlot c s).draws = s.draws := rfl
@[simp] theorem useSlot_link (c : Claim) (s : State) : (useSlot c s).link = s.link := rfl
@[simp] theorem useSlot_pool (c : Claim) (s : State) : (useSlot c s).pool = s.pool := rfl
@[simp] theorem useSlot_bulk (c : Claim) (s : State) : (useSlot c s).bulk = s.bulk := rfl
@[simp] theorem useSlot_notices (c : Claim) (s : State) : (useSlot c s).notices = s.notices := rfl
@[simp] theorem useSlot_lanes (c : Claim) (s : State) : (useSlot c s).lanes = s.lanes := rfl
@[simp] theorem useSlot_ctxs (c : Claim) (s : State) : (useSlot c s).ctxs = s.ctxs := rfl
@[simp] theorem useSlot_parks (c : Claim) (s : State) : (useSlot c s).parks = s.parks := rfl
@[simp] theorem useSlot_banks (c : Claim) (s : State) : (useSlot c s).banks = s.banks := rfl
@[simp] theorem useSlot_claims (c : Claim) (s : State) : (useSlot c s).claims = s.claims := rfl
@[simp] theorem useSlot_accounts (c : Claim) (s : State) : (useSlot c s).accounts = s.accounts := rfl
@[simp] theorem useSlot_authority (c : Claim) (s : State) : (useSlot c s).authority = s.authority := rfl
@[simp] theorem useSlot_sched (c : Claim) (s : State) : (useSlot c s).sched = s.sched := rfl
@[simp] theorem useSlot_streams (c : Claim) (s : State) : (useSlot c s).streams = s.streams := rfl
@[simp] theorem useSlot_conds (c : Claim) (s : State) : (useSlot c s).conds = s.conds := rfl
@[simp] theorem useSlot_config (c : Claim) (s : State) : (useSlot c s).config = s.config := rfl
@[simp] theorem useSlot_device (c : Claim) (s : State) : (useSlot c s).device = s.device := rfl

/-! ### placeFrame -/

@[simp] theorem placeFrame_pending (f : Frame) (s : State) : (placeFrame f s).pending = s.pending := rfl
@[simp] theorem placeFrame_now (f : Frame) (s : State) : (placeFrame f s).now = s.now := rfl
@[simp] theorem placeFrame_draws (f : Frame) (s : State) : (placeFrame f s).draws = s.draws := rfl
@[simp] theorem placeFrame_link (f : Frame) (s : State) : (placeFrame f s).link = s.link := rfl
@[simp] theorem placeFrame_pool (f : Frame) (s : State) : (placeFrame f s).pool = s.pool := rfl
@[simp] theorem placeFrame_bulk (f : Frame) (s : State) : (placeFrame f s).bulk = s.bulk := rfl
@[simp] theorem placeFrame_notices (f : Frame) (s : State) : (placeFrame f s).notices = s.notices := rfl
@[simp] theorem placeFrame_lanes (f : Frame) (s : State) : (placeFrame f s).lanes = s.lanes := rfl
@[simp] theorem placeFrame_ctxs (f : Frame) (s : State) : (placeFrame f s).ctxs = s.ctxs := rfl
@[simp] theorem placeFrame_parks (f : Frame) (s : State) : (placeFrame f s).parks = s.parks := rfl
@[simp] theorem placeFrame_banks (f : Frame) (s : State) : (placeFrame f s).banks = s.banks := rfl
@[simp] theorem placeFrame_claims (f : Frame) (s : State) : (placeFrame f s).claims = s.claims := rfl
@[simp] theorem placeFrame_accounts (f : Frame) (s : State) : (placeFrame f s).accounts = s.accounts := rfl
@[simp] theorem placeFrame_authority (f : Frame) (s : State) : (placeFrame f s).authority = s.authority := rfl
@[simp] theorem placeFrame_sched (f : Frame) (s : State) : (placeFrame f s).sched = s.sched := rfl
@[simp] theorem placeFrame_streams (f : Frame) (s : State) : (placeFrame f s).streams = s.streams := rfl
@[simp] theorem placeFrame_conds (f : Frame) (s : State) : (placeFrame f s).conds = s.conds := rfl
@[simp] theorem placeFrame_config (f : Frame) (s : State) : (placeFrame f s).config = s.config := rfl
@[simp] theorem placeFrame_device (f : Frame) (s : State) : (placeFrame f s).device = s.device := rfl

/-! ### placeReserved -/

@[simp] theorem placeReserved_pending (f : Frame) (s : State) : (placeReserved f s).pending = s.pending := rfl
@[simp] theorem placeReserved_now (f : Frame) (s : State) : (placeReserved f s).now = s.now := rfl
@[simp] theorem placeReserved_draws (f : Frame) (s : State) : (placeReserved f s).draws = s.draws := rfl
@[simp] theorem placeReserved_link (f : Frame) (s : State) : (placeReserved f s).link = s.link := rfl
@[simp] theorem placeReserved_pool (f : Frame) (s : State) : (placeReserved f s).pool = s.pool := rfl
@[simp] theorem placeReserved_bulk (f : Frame) (s : State) : (placeReserved f s).bulk = s.bulk := rfl
@[simp] theorem placeReserved_notices (f : Frame) (s : State) : (placeReserved f s).notices = s.notices := rfl
@[simp] theorem placeReserved_lanes (f : Frame) (s : State) : (placeReserved f s).lanes = s.lanes := rfl
@[simp] theorem placeReserved_ctxs (f : Frame) (s : State) : (placeReserved f s).ctxs = s.ctxs := rfl
@[simp] theorem placeReserved_parks (f : Frame) (s : State) : (placeReserved f s).parks = s.parks := rfl
@[simp] theorem placeReserved_banks (f : Frame) (s : State) : (placeReserved f s).banks = s.banks := rfl
@[simp] theorem placeReserved_claims (f : Frame) (s : State) : (placeReserved f s).claims = s.claims := rfl
@[simp] theorem placeReserved_accounts (f : Frame) (s : State) : (placeReserved f s).accounts = s.accounts := rfl
@[simp] theorem placeReserved_authority (f : Frame) (s : State) : (placeReserved f s).authority = s.authority := rfl
@[simp] theorem placeReserved_sched (f : Frame) (s : State) : (placeReserved f s).sched = s.sched := rfl
@[simp] theorem placeReserved_streams (f : Frame) (s : State) : (placeReserved f s).streams = s.streams := rfl
@[simp] theorem placeReserved_conds (f : Frame) (s : State) : (placeReserved f s).conds = s.conds := rfl
@[simp] theorem placeReserved_config (f : Frame) (s : State) : (placeReserved f s).config = s.config := rfl
@[simp] theorem placeReserved_device (f : Frame) (s : State) : (placeReserved f s).device = s.device := rfl

/-! ### reserveSlot -/

@[simp] theorem reserveSlot_pending (s : State) : (reserveSlot s).pending = s.pending := rfl
@[simp] theorem reserveSlot_now (s : State) : (reserveSlot s).now = s.now := rfl
@[simp] theorem reserveSlot_draws (s : State) : (reserveSlot s).draws = s.draws := rfl
@[simp] theorem reserveSlot_link (s : State) : (reserveSlot s).link = s.link := rfl
@[simp] theorem reserveSlot_pool (s : State) : (reserveSlot s).pool = s.pool := rfl
@[simp] theorem reserveSlot_bulk (s : State) : (reserveSlot s).bulk = s.bulk := rfl
@[simp] theorem reserveSlot_notices (s : State) : (reserveSlot s).notices = s.notices := rfl
@[simp] theorem reserveSlot_lanes (s : State) : (reserveSlot s).lanes = s.lanes := rfl
@[simp] theorem reserveSlot_ctxs (s : State) : (reserveSlot s).ctxs = s.ctxs := rfl
@[simp] theorem reserveSlot_parks (s : State) : (reserveSlot s).parks = s.parks := rfl
@[simp] theorem reserveSlot_banks (s : State) : (reserveSlot s).banks = s.banks := rfl
@[simp] theorem reserveSlot_claims (s : State) : (reserveSlot s).claims = s.claims := rfl
@[simp] theorem reserveSlot_accounts (s : State) : (reserveSlot s).accounts = s.accounts := rfl
@[simp] theorem reserveSlot_authority (s : State) : (reserveSlot s).authority = s.authority := rfl
@[simp] theorem reserveSlot_sched (s : State) : (reserveSlot s).sched = s.sched := rfl
@[simp] theorem reserveSlot_streams (s : State) : (reserveSlot s).streams = s.streams := rfl
@[simp] theorem reserveSlot_conds (s : State) : (reserveSlot s).conds = s.conds := rfl
@[simp] theorem reserveSlot_config (s : State) : (reserveSlot s).config = s.config := rfl
@[simp] theorem reserveSlot_device (s : State) : (reserveSlot s).device = s.device := rfl

/-! ### dropClaims -/

@[simp] theorem dropClaims_pending (s : State) : (dropClaims s).pending = s.pending := rfl
@[simp] theorem dropClaims_now (s : State) : (dropClaims s).now = s.now := rfl
@[simp] theorem dropClaims_draws (s : State) : (dropClaims s).draws = s.draws := rfl
@[simp] theorem dropClaims_link (s : State) : (dropClaims s).link = s.link := rfl
@[simp] theorem dropClaims_pool (s : State) : (dropClaims s).pool = s.pool := rfl
@[simp] theorem dropClaims_bulk (s : State) : (dropClaims s).bulk = s.bulk := rfl
@[simp] theorem dropClaims_notices (s : State) : (dropClaims s).notices = s.notices := rfl
@[simp] theorem dropClaims_lanes (s : State) : (dropClaims s).lanes = s.lanes := rfl
@[simp] theorem dropClaims_ctxs (s : State) : (dropClaims s).ctxs = s.ctxs := rfl
@[simp] theorem dropClaims_parks (s : State) : (dropClaims s).parks = s.parks := rfl
@[simp] theorem dropClaims_banks (s : State) : (dropClaims s).banks = s.banks := rfl
@[simp] theorem dropClaims_claims (s : State) : (dropClaims s).claims = s.claims := rfl
@[simp] theorem dropClaims_accounts (s : State) : (dropClaims s).accounts = s.accounts := rfl
@[simp] theorem dropClaims_authority (s : State) : (dropClaims s).authority = s.authority := rfl
@[simp] theorem dropClaims_sched (s : State) : (dropClaims s).sched = s.sched := rfl
@[simp] theorem dropClaims_streams (s : State) : (dropClaims s).streams = s.streams := rfl
@[simp] theorem dropClaims_conds (s : State) : (dropClaims s).conds = s.conds := rfl
@[simp] theorem dropClaims_config (s : State) : (dropClaims s).config = s.config := rfl
@[simp] theorem dropClaims_device (s : State) : (dropClaims s).device = s.device := rfl

/-! ### serveClaims -/

@[simp] theorem serveClaims_pending (s : State) : (serveClaims s).pending = s.pending := rfl
@[simp] theorem serveClaims_now (s : State) : (serveClaims s).now = s.now := rfl
@[simp] theorem serveClaims_draws (s : State) : (serveClaims s).draws = s.draws := rfl
@[simp] theorem serveClaims_link (s : State) : (serveClaims s).link = s.link := rfl
@[simp] theorem serveClaims_pool (s : State) : (serveClaims s).pool = s.pool := rfl
@[simp] theorem serveClaims_bulk (s : State) : (serveClaims s).bulk = s.bulk := rfl
@[simp] theorem serveClaims_notices (s : State) : (serveClaims s).notices = s.notices := rfl
@[simp] theorem serveClaims_lanes (s : State) : (serveClaims s).lanes = s.lanes := rfl
@[simp] theorem serveClaims_ctxs (s : State) : (serveClaims s).ctxs = s.ctxs := rfl
@[simp] theorem serveClaims_parks (s : State) : (serveClaims s).parks = s.parks := rfl
@[simp] theorem serveClaims_banks (s : State) : (serveClaims s).banks = s.banks := rfl
@[simp] theorem serveClaims_claims (s : State) : (serveClaims s).claims = s.claims := rfl
@[simp] theorem serveClaims_accounts (s : State) : (serveClaims s).accounts = s.accounts := rfl
@[simp] theorem serveClaims_authority (s : State) : (serveClaims s).authority = s.authority := rfl
@[simp] theorem serveClaims_sched (s : State) : (serveClaims s).sched = s.sched := rfl
@[simp] theorem serveClaims_streams (s : State) : (serveClaims s).streams = s.streams := rfl
@[simp] theorem serveClaims_conds (s : State) : (serveClaims s).conds = s.conds := rfl
@[simp] theorem serveClaims_config (s : State) : (serveClaims s).config = s.config := rfl
@[simp] theorem serveClaims_device (s : State) : (serveClaims s).device = s.device := rfl

/-! ### joinClaims -/

@[simp] theorem joinClaims_pending (s : State) : (joinClaims s).pending = s.pending := by unfold joinClaims; split <;> rfl
@[simp] theorem joinClaims_now (s : State) : (joinClaims s).now = s.now := by unfold joinClaims; split <;> rfl
@[simp] theorem joinClaims_link (s : State) : (joinClaims s).link = s.link := by unfold joinClaims; split <;> rfl
@[simp] theorem joinClaims_pool (s : State) : (joinClaims s).pool = s.pool := by unfold joinClaims; split <;> rfl
@[simp] theorem joinClaims_bulk (s : State) : (joinClaims s).bulk = s.bulk := by unfold joinClaims; split <;> rfl
@[simp] theorem joinClaims_notices (s : State) : (joinClaims s).notices = s.notices := by unfold joinClaims; split <;> rfl
@[simp] theorem joinClaims_lanes (s : State) : (joinClaims s).lanes = s.lanes := by unfold joinClaims; split <;> rfl
@[simp] theorem joinClaims_ctxs (s : State) : (joinClaims s).ctxs = s.ctxs := by unfold joinClaims; split <;> rfl
@[simp] theorem joinClaims_parks (s : State) : (joinClaims s).parks = s.parks := by unfold joinClaims; split <;> rfl
@[simp] theorem joinClaims_banks (s : State) : (joinClaims s).banks = s.banks := by unfold joinClaims; split <;> rfl
@[simp] theorem joinClaims_claims (s : State) : (joinClaims s).claims = s.claims := by unfold joinClaims; split <;> rfl
@[simp] theorem joinClaims_accounts (s : State) : (joinClaims s).accounts = s.accounts := by unfold joinClaims; split <;> rfl
@[simp] theorem joinClaims_authority (s : State) : (joinClaims s).authority = s.authority := by unfold joinClaims; split <;> rfl
@[simp] theorem joinClaims_sched (s : State) : (joinClaims s).sched = s.sched := by unfold joinClaims; split <;> rfl
@[simp] theorem joinClaims_streams (s : State) : (joinClaims s).streams = s.streams := by unfold joinClaims; split <;> rfl
@[simp] theorem joinClaims_conds (s : State) : (joinClaims s).conds = s.conds := by unfold joinClaims; split <;> rfl
@[simp] theorem joinClaims_config (s : State) : (joinClaims s).config = s.config := by unfold joinClaims; split <;> rfl
@[simp] theorem joinClaims_device (s : State) : (joinClaims s).device = s.device := by unfold joinClaims; split <;> rfl

/-! ### settleClaims -/

@[simp] theorem settleClaims_pending (s : State) : (settleClaims s).pending = s.pending := by simp [settleClaims]
@[simp] theorem settleClaims_now (s : State) : (settleClaims s).now = s.now := by simp [settleClaims]
@[simp] theorem settleClaims_link (s : State) : (settleClaims s).link = s.link := by simp [settleClaims]
@[simp] theorem settleClaims_pool (s : State) : (settleClaims s).pool = s.pool := by simp [settleClaims]
@[simp] theorem settleClaims_bulk (s : State) : (settleClaims s).bulk = s.bulk := by simp [settleClaims]
@[simp] theorem settleClaims_notices (s : State) : (settleClaims s).notices = s.notices := by simp [settleClaims]
@[simp] theorem settleClaims_lanes (s : State) : (settleClaims s).lanes = s.lanes := by simp [settleClaims]
@[simp] theorem settleClaims_ctxs (s : State) : (settleClaims s).ctxs = s.ctxs := by simp [settleClaims]
@[simp] theorem settleClaims_parks (s : State) : (settleClaims s).parks = s.parks := by simp [settleClaims]
@[simp] theorem settleClaims_banks (s : State) : (settleClaims s).banks = s.banks := by simp [settleClaims]
@[simp] theorem settleClaims_claims (s : State) : (settleClaims s).claims = s.claims := by simp [settleClaims]
@[simp] theorem settleClaims_accounts (s : State) : (settleClaims s).accounts = s.accounts := by simp [settleClaims]
@[simp] theorem settleClaims_authority (s : State) : (settleClaims s).authority = s.authority := by simp [settleClaims]
@[simp] theorem settleClaims_sched (s : State) : (settleClaims s).sched = s.sched := by simp [settleClaims]
@[simp] theorem settleClaims_streams (s : State) : (settleClaims s).streams = s.streams := by simp [settleClaims]
@[simp] theorem settleClaims_conds (s : State) : (settleClaims s).conds = s.conds := by simp [settleClaims]
@[simp] theorem settleClaims_config (s : State) : (settleClaims s).config = s.config := by simp [settleClaims]
@[simp] theorem settleClaims_device (s : State) : (settleClaims s).device = s.device := by simp [settleClaims]

/-! ### The main queue under the operations on it -/

@[simp] theorem joinClaims_frames (s : State) : (joinClaims s).mainQ.frames = s.mainQ.frames := by
  unfold joinClaims; split <;> rfl
@[simp] theorem joinClaims_reserved (s : State) : (joinClaims s).mainQ.reserved = s.mainQ.reserved := by
  unfold joinClaims; split <;> rfl
@[simp] theorem joinClaims_served (s : State) : (joinClaims s).mainQ.served = s.mainQ.served := by
  unfold joinClaims; split <;> rfl
@[simp] theorem settleClaims_frames (s : State) : (settleClaims s).mainQ.frames = s.mainQ.frames := by
  simp [settleClaims, serveClaims, dropClaims]
@[simp] theorem settleClaims_reserved (s : State) : (settleClaims s).mainQ.reserved = s.mainQ.reserved := by
  simp [settleClaims, serveClaims, dropClaims]
@[simp] theorem placeReserved_frames (f : Frame) (s : State) :
    (placeReserved f s).mainQ.frames = s.mainQ.frames ++ [f] := rfl
@[simp] theorem placeReserved_reserved (f : Frame) (s : State) :
    (placeReserved f s).mainQ.reserved = s.mainQ.reserved - 1 := rfl
@[simp] theorem placeFrame_frames (f : Frame) (s : State) :
    (placeFrame f s).mainQ.frames = s.mainQ.frames ++ [f] := rfl
@[simp] theorem placeFrame_reserved (f : Frame) (s : State) :
    (placeFrame f s).mainQ.reserved = s.mainQ.reserved := rfl
@[simp] theorem reserveSlot_frames (s : State) : (reserveSlot s).mainQ.frames = s.mainQ.frames := rfl
@[simp] theorem reserveSlot_reserved (s : State) : (reserveSlot s).mainQ.reserved = s.mainQ.reserved + 1 := rfl
@[simp] theorem useSlot_frames (c : Claim) (s : State) : (useSlot c s).mainQ.frames = s.mainQ.frames := rfl
@[simp] theorem useSlot_reserved (c : Claim) (s : State) : (useSlot c s).mainQ.reserved = s.mainQ.reserved := rfl

/-! ### The inbound queues at a take -/

theorem clearCongestion_frames (q : QueueId) (s : State) :
    ((clearCongestion q s).inbound q).frames = (s.inbound q).frames := by
  unfold clearCongestion; dsimp only; split
  · split <;> cases q <;> rfl
  · rfl
@[simp] theorem removeFrame_pool_frames (f : Frame) (s : State) :
    (removeFrame .pool f s).pool.frames = s.pool.frames.erase f := clearCongestion_frames .pool _
@[simp] theorem removeFrame_bulk_frames (f : Frame) (s : State) :
    (removeFrame .bulk f s).bulk.frames = s.bulk.frames.erase f := clearCongestion_frames .bulk _
@[simp] theorem removeFrame_pool_bulk (f : Frame) (s : State) : (removeFrame .pool f s).bulk = s.bulk := by
  unfold removeFrame clearCongestion; dsimp only; split
  · split <;> rfl
  · rfl
@[simp] theorem removeFrame_bulk_pool (f : Frame) (s : State) : (removeFrame .bulk f s).pool = s.pool := by
  unfold removeFrame clearCongestion; dsimp only; split
  · split <;> rfl
  · rfl
theorem clearCongestion_link (q : QueueId) (s : State) :
    (clearCongestion q s).link = { s.link with deviceHolds := (clearCongestion q s).link.deviceHolds } := by
  unfold clearCongestion; dsimp only; split
  · split <;> cases q <;> rfl
  · rfl
/-- A take changes of the link port at most the pending device HOLD records (R172). -/
theorem removeFrame_link (q : QueueId) (f : Frame) (s : State) :
    (removeFrame q f s).link = { s.link with deviceHolds := (removeFrame q f s).link.deviceHolds } := by
  have h := clearCongestion_link q (s.setInbound q { s.inbound q with frames := (s.inbound q).frames.erase f })
  simpa [removeFrame] using h


end Sys2Proof.Machine
end

