-- ==== Sys2Proof/Laws/PerInstr.lean ====
section
/-! SUPPORT. A fact about every command: the frame a well-formed command takes or delivers fits the link, and sorting
(R166) puts it where the command looks for it. -/

namespace Sys2Proof.Laws.Sorting

open Sys2Proof.Machine

/-- The frame of a well-formed command has a payload a frame can hold (R163); a request goes to the lane pool or, with
LANE 0, to the bulk queue, and is not answered with kind 0xFE; a HOLD acts at its arrival; and a frame
UNKNOWN_KIND_ANSWER answers goes to the bulk queue and has an outcome (R6, R166). -/
def Statement (i : Instr) : Prop :=
  i.wf = true → ∀ f, i.frame? = some f →
    f.payload.length ≤ 240 ∧
      match i with
      | .hold _ => Frame.actsAtOnce f = true
      | .unknownKindAnswer _ =>
        Frame.actsAtOnce f = false ∧ queueOf f = .bulk ∧ unanswerableOutcome f ≠ none
      | _ =>
        Frame.actsAtOnce f = false ∧ queueOf f = (if f.lane = 0 then .bulk else .pool) ∧
          unanswerableOutcome f = none

theorem laneOf_isSome {b : Byte} (h : b.toNat ≤ 8) : (laneOf b).isSome = !(b == 0) := by
  unfold laneOf
  by_cases h0 : b = 0
  · subst h0; rfl
  · have : b.toNat ≠ 0 := fun e => h0 (BitVec.eq_of_toNat_eq e)
    have h1 : 1 ≤ b.toNat ∧ b.toNat ≤ 8 := ⟨by omega, h⟩
    have h2 : (b == 0) = false := by simpa using h0
    rw [dif_pos h1, h2]; rfl

/-- A well-formed request of a known kind other than HOLD goes to the queue of its LANE. -/
theorem request_sorted {k : Byte} {r : Req} (hk : isKnownKind k = true) (hh : (k == kindHold) = false)
    (h : r.wf = true) :
    (r.frame k).payload.length ≤ 240 ∧ Frame.actsAtOnce (r.frame k) = false ∧
      queueOf (r.frame k) = (if (r.frame k).lane = 0 then .bulk else .pool) ∧
      unanswerableOutcome (r.frame k) = none := by
  simp only [Req.wf, Bool.and_eq_true, decide_eq_true_eq] at h
  refine ⟨h.2, by simp [Frame.actsAtOnce, Req.frame, hh], ?_, ?_⟩
  · have hl := laneOf_isSome h.1
    simp [queueOf, Req.frame, hk, hh, hl]
    split <;> simp_all
  · have : ¬ 8 < r.lane.toNat := by omega
    simp [unanswerableOutcome, Req.frame, hk, hh, this]

/-- A command that names no frame. -/
theorem of_no_frame {i : Instr} (h : i.frame? = none) : Statement i := by
  intro _ f hf; rw [h] at hf; cases hf

theorem openBasket (r : Req) : Statement (.openBasket r) := by
  intro h f hf; cases hf; exact request_sorted rfl rfl h
theorem addLine (r : Req) : Statement (.addLine r) := by
  intro h f hf; cases hf; exact request_sorted rfl rfl h
theorem setQty (r : Req) : Statement (.setQty r) := by
  intro h f hf; cases hf; exact request_sorted rfl rfl h
theorem voidLine (r : Req) : Statement (.voidLine r) := by
  intro h f hf; cases hf; exact request_sorted rfl rfl h
theorem override (r : Req) : Statement (.override r) := by
  intro h f hf; cases hf; exact request_sorted rfl rfl h
theorem clearOverride (r : Req) : Statement (.clearOverride r) := by
  intro h f hf; cases hf; exact request_sorted rfl rfl h
theorem presentCoupon (r : Req) : Statement (.presentCoupon r) := by
  intro h f hf; cases hf; exact request_sorted rfl rfl h
theorem withdrawCoupon (r : Req) : Statement (.withdrawCoupon r) := by
  intro h f hf; cases hf; exact request_sorted rfl rfl h
theorem attachAccount (r : Req) : Statement (.attachAccount r) := by
  intro h f hf; cases hf; exact request_sorted rfl rfl h
theorem detachAccount (r : Req) : Statement (.detachAccount r) := by
  intro h f hf; cases hf; exact request_sorted rfl rfl h
theorem redeem (r : Req) : Statement (.redeem r) := by
  intro h f hf; cases hf; exact request_sorted rfl rfl h
theorem cancelRedeem (r : Req) : Statement (.cancelRedeem r) := by
  intro h f hf; cases hf; exact request_sorted rfl rfl h
theorem setTracking (r : Req) : Statement (.setTracking r) := by
  intro h f hf; cases hf; exact request_sorted rfl rfl h
theorem total (r : Req) : Statement (.total r) := by
  intro h f hf; cases hf; exact request_sorted rfl rfl h
theorem finalize (r : Req) : Statement (.finalize r) := by
  intro h f hf; cases hf; exact request_sorted rfl rfl h
theorem voidBasket (r : Req) : Statement (.voidBasket r) := by
  intro h f hf; cases hf; exact request_sorted rfl rfl h
theorem park (r : Req) : Statement (.park r) := by
  intro h f hf; cases hf; exact request_sorted rfl rfl h
theorem recallBasket (r : Req) : Statement (.recallBasket r) := by
  intro h f hf; cases hf; exact request_sorted rfl rfl h
theorem queryBasket (r : Req) : Statement (.queryBasket r) := by
  intro h f hf; cases hf; exact request_sorted rfl rfl h
theorem bankBegin (r : Req) : Statement (.bankBegin r) := by
  intro h f hf; cases hf; exact request_sorted rfl rfl h
theorem offerPut (r : Req) : Statement (.offerPut r) := by
  intro h f hf; cases hf; exact request_sorted rfl rfl h
theorem offersClose (r : Req) : Statement (.offersClose r) := by
  intro h f hf; cases hf; exact request_sorted rfl rfl h
theorem schedulePut (r : Req) : Statement (.schedulePut r) := by
  intro h f hf; cases hf; exact request_sorted rfl rfl h
theorem bankCommit (r : Req) : Statement (.bankCommit r) := by
  intro h f hf; cases hf; exact request_sorted rfl rfl h
theorem bankAbandon (r : Req) : Statement (.bankAbandon r) := by
  intro h f hf; cases hf; exact request_sorted rfl rfl h
theorem authorityLoad (r : Req) : Statement (.authorityLoad r) := by
  intro h f hf; cases hf; exact request_sorted rfl rfl h
theorem authorityRemove (r : Req) : Statement (.authorityRemove r) := by
  intro h f hf; cases hf; exact request_sorted rfl rfl h
theorem authorityClear (r : Req) : Statement (.authorityClear r) := by
  intro h f hf; cases hf; exact request_sorted rfl rfl h
theorem accountBalance (r : Req) : Statement (.accountBalance r) := by
  intro h f hf; cases hf; exact request_sorted rfl rfl h
theorem queryAccount (r : Req) : Statement (.queryAccount r) := by
  intro h f hf; cases hf; exact request_sorted rfl rfl h
theorem queryClaim (r : Req) : Statement (.queryClaim r) := by
  intro h f hf; cases hf; exact request_sorted rfl rfl h
theorem configure (r : Req) : Statement (.configure r) := by
  intro h f hf; cases hf; exact request_sorted rfl rfl h
theorem dayOpen (r : Req) : Statement (.dayOpen r) := by
  intro h f hf; cases hf; exact request_sorted rfl rfl h
theorem clearConditions (r : Req) : Statement (.clearConditions r) := by
  intro h f hf; cases hf; exact request_sorted rfl rfl h
theorem setMask (r : Req) : Statement (.setMask r) := by
  intro h f hf; cases hf; exact request_sorted rfl rfl h
theorem identify (r : Req) : Statement (.identify r) := by
  intro h f hf; cases hf; exact request_sorted rfl rfl h
theorem status (r : Req) : Statement (.status r) := by
  intro h f hf; cases hf; exact request_sorted rfl rfl h
theorem restart (r : Req) : Statement (.restart r) := by
  intro h f hf; cases hf; exact request_sorted rfl rfl h
theorem unknownKindAnswer (f : Frame) : Statement (.unknownKindAnswer f) := by
  intro h g hg
  simp only [Instr.wf, Bool.and_eq_true, decide_eq_true_eq] at h
  simp only [Instr.frame?, Option.some.injEq] at hg
  subst hg
  obtain ⟨hl, hu⟩ := h
  simp only [Frame.unanswerable] at hu
  refine ⟨hl, ?_⟩
  by_cases hk : isKnownKind f.kind = true
  · by_cases hh : f.kind = kindHold
    · have hb : holdWellFormed f.payload = false := by
        rw [hh] at hk; simpa [hk, hh] using hu
      refine ⟨by simp [Frame.actsAtOnce, hb], by simp [queueOf, hh], ?_⟩
      unfold unanswerableOutcome; rw [hh] at hk ⊢; simp [hk]; split <;> simp
    · have h8 : 8 < f.lane.toNat := by simpa [hk, hh] using hu
      have hn : laneOf f.lane = none := by unfold laneOf; rw [dif_neg]; omega
      refine ⟨by simp [Frame.actsAtOnce, hh], by simp [queueOf, hk, hh, hn], ?_⟩
      unfold unanswerableOutcome; simp [hk, h8]
  · have hh : f.kind ≠ kindHold := by intro e; rw [e] at hk; exact hk (by decide)
    refine ⟨by simp [Frame.actsAtOnce, hh], by simp [queueOf, hk], ?_⟩
    unfold unanswerableOutcome; simp [hk]

theorem hold (r : Req) : Statement (.hold r) := by
  intro h f hf
  simp only [Instr.wf] at h
  simp only [Instr.frame?, Instr.kind?, Instr.req?, Option.some.injEq] at hf
  subst hf
  refine ⟨?_, by simpa [Frame.actsAtOnce, Req.frame, kindHold] using h⟩
  simp only [holdWellFormed, Bool.and_eq_true, beq_iff_eq] at h
  simp only [Req.frame]; omega

theorem frameComplete (b : Byte) : Statement (.frameComplete b) := of_no_frame rfl
theorem lengthFault (b : Byte) : Statement (.lengthFault b) := of_no_frame rfl
theorem gapFault : Statement .gapFault := of_no_frame rfl
theorem transmitStart : Statement .transmitStart := of_no_frame rfl
theorem transmitEnd : Statement .transmitEnd := of_no_frame rfl
theorem renewExpiry (q : QueueId) : Statement (.renewExpiry q) := of_no_frame rfl
theorem outputHoldExpiry : Statement .outputHoldExpiry := of_no_frame rfl
theorem resolveGrant : Statement .resolveGrant := of_no_frame rfl
theorem resolutionComplete : Statement .resolutionComplete := of_no_frame rfl
theorem owedSubtotal (l : LaneNo) : Statement (.owedSubtotal l) := of_no_frame rfl
theorem settlementFrame (l : LaneNo) : Statement (.settlementFrame l) := of_no_frame rfl
theorem settleEnd (l : LaneNo) : Statement (.settleEnd l) := of_no_frame rfl
theorem reservationExpiry (c : CtxNo) : Statement (.reservationExpiry c) := of_no_frame rfl
theorem idleWarning (l : LaneNo) : Statement (.idleWarning l) := of_no_frame rfl
theorem autoPark (l : LaneNo) : Statement (.autoPark l) := of_no_frame rfl
theorem parkExpiry (c : CtxNo) : Statement (.parkExpiry c) := of_no_frame rfl
theorem hardReset (straps : BitVec 2) : Statement (.hardReset straps) := of_no_frame rfl
theorem softReset (straps : BitVec 2) : Statement (.softReset straps) := of_no_frame rfl
theorem byteReceived (b : Byte) : Statement (.byteReceived b) := of_no_frame rfl
theorem resetnLow : Statement .resetnLow := of_no_frame rfl

end Sys2Proof.Laws.Sorting
end

