-- ==== Sys2Proof/Laws/Quotes.lean ====
section
/-! SUPPORT. What the choices of the price computation are (chapter 4): the best offer, the rank order, the exclusive and
the stackable offers of a line, the pricing of the lines one after the other, and the spend offers, coupons and boosts
taken after them. -/

namespace Sys2Proof.Machine

/-- The offers of a list have distinct ids. -/
abbrev DistinctIds (os : List Offer) : Prop := os.Pairwise fun o p => o.id ≠ p.id

theorem DistinctIds.eq_of_id {os : List Offer} (h : DistinctIds os) {o p : Offer} (ho : o ∈ os) (hp : p ∈ os)
    (e : o.id = p.id) : o = p := by
  induction os with
  | nil => simp at ho
  | cons x xs ih =>
    rw [DistinctIds, List.pairwise_cons] at h
    rcases List.mem_cons.1 ho with h1 | h1 <;> rcases List.mem_cons.1 hp with h2 | h2
    · rw [h1, h2]
    · subst h1; exact absurd e (h.1 _ h2)
    · subst h2; exact absurd e.symm (h.1 _ h1)
    · exact ih h.2 h1 h2

/-! ### Rank order and best offer -/

theorem before_iff (o p : Offer) : o.before p = true ↔ RanksBefore o p := by
  simp [Offer.before, RanksBefore]

theorem RanksBefore.trans {o p q : Offer} (h : RanksBefore o p) (h' : RanksBefore p q) : RanksBefore o q := by
  unfold RanksBefore at *; omega

theorem RanksBefore.total {o p : Offer} (h : o.id ≠ p.id) : RanksBefore o p ∨ RanksBefore p o := by
  unfold RanksBefore; omega

theorem pickBest_none {score : Offer → Nat} {os : List Offer} : pickBest score os = none ↔ os = [] := by
  cases os with
  | nil => simp [pickBest]
  | cons x xs =>
    simp only [pickBest, reduceCtorEq, iff_false]
    split
    · simp
    · split <;> simp

/-- The pick has the greatest score, then the lowest rank, then the lowest id. -/
theorem pickBest_best {score : Offer → Nat} {os : List Offer} {o : Offer} (hd : DistinctIds os)
    (h : pickBest score os = some o) : BestOf (· ∈ os) score o := by
  induction os generalizing o with
  | nil => simp [pickBest] at h
  | cons x xs ih =>
    rw [DistinctIds, List.pairwise_cons] at hd
    simp only [pickBest] at h
    cases hx : pickBest score xs with
    | none =>
      rw [pickBest_none] at hx; subst hx
      simp only [pickBest, Option.some.injEq] at h; subst h
      refine ⟨List.mem_cons_self, fun p hp hne => ?_⟩
      simp at hp; exact absurd hp hne
    | some y =>
      rw [hx] at h
      obtain ⟨hy, hb⟩ := ih hd.2 hx
      simp only at h
      split at h
      · next hc =>
        simp only [Option.some.injEq] at h; subst h
        refine ⟨List.mem_cons_self, fun p hp hne => ?_⟩
        have hp : p ∈ xs := (List.mem_cons.1 hp).resolve_left hne
        rw [before_iff] at hc
        by_cases e : p = y
        · subst e; rcases hc with hc | ⟨h1, h2⟩
          · exact .inl hc
          · exact .inr ⟨h1, h2⟩
        · rcases hc with hc | ⟨h1, h2⟩ <;> rcases hb p hp e with h3 | ⟨h3, h4⟩
          · left; omega
          · left; omega
          · left; omega
          · exact .inr ⟨by omega, h2.trans h4⟩
      · next hc =>
        simp only [Option.some.injEq] at h; subst h
        refine ⟨List.mem_cons_of_mem _ hy, fun p hp hne => ?_⟩
        rcases List.mem_cons.1 hp with e | hp
        · rw [e]
          rw [before_iff] at hc
          by_cases hs : score x < score y
          · exact .inl hs
          · refine .inr ⟨?_, ?_⟩
            · by_cases h1 : score y < score x
              · exact absurd (.inl h1) hc
              · omega
            · have hne : score y = score x := by
                by_cases h1 : score y < score x
                · exact absurd (.inl h1) hc
                · omega
              rcases RanksBefore.total (hd.1 _ hy) with h1 | h1
              · exact absurd (.inr ⟨hne, h1⟩) hc
              · exact h1
        · exact hb p hp hne

/-- An offer that is best of a list is the pick. -/
theorem BestOf.congr {among among' : Offer → Prop} {score score' : Offer → Nat} {o : Offer}
    (h : BestOf among score o) (ha : ∀ p, among p ↔ among' p) (hs : ∀ p, among p → score p = score' p) :
    BestOf among' score' o := by
  refine ⟨(ha o).1 h.1, fun p hp hne => ?_⟩
  have hp' := (ha p).2 hp
  rw [← hs p hp', ← hs o h.1]
  exact h.2 p hp' hne

theorem BestOf.unique {among : Offer → Prop} {score : Offer → Nat} {o p : Offer}
    (h : BestOf among score o) (h' : BestOf among score p) : o = p := by
  refine Classical.byContradiction fun hne => ?_
  have h1 := h.2 p h'.1 (fun e => hne e.symm)
  have h2 := h'.2 o h.1 hne
  unfold RanksBefore at *
  omega

theorem insertByOrder_perm (o : Offer) (l : List Offer) : (insertByOrder o l).Perm (o :: l) := by
  induction l with
  | nil => exact .refl _
  | cons x xs ih =>
    unfold insertByOrder
    split
    · exact .refl _
    · exact (ih.cons x).trans (.swap o x xs)

theorem inOrder_perm (l : List Offer) : (inOrder l).Perm l := by
  induction l with
  | nil => exact .refl _
  | cons x xs ih => exact (insertByOrder_perm x _).trans (ih.cons x)

theorem insertByOrder_sorted {o : Offer} {l : List Offer} (h : l.Pairwise RanksBefore) (hd : ∀ p ∈ l, o.id ≠ p.id) :
    (insertByOrder o l).Pairwise RanksBefore := by
  induction l with
  | nil => simp [insertByOrder]
  | cons x xs ih =>
    rw [List.pairwise_cons] at h
    unfold insertByOrder
    split
    · next hb =>
      rw [before_iff] at hb
      rw [List.pairwise_cons, List.pairwise_cons]
      refine ⟨fun p hp => ?_, h.1, h.2⟩
      rcases List.mem_cons.1 hp with rfl | hp
      · exact hb
      · exact hb.trans (h.1 p hp)
    · next hb =>
      rw [before_iff] at hb
      rw [List.pairwise_cons]
      refine ⟨fun p hp => ?_, ih h.2 fun p hp => hd p (List.mem_cons_of_mem _ hp)⟩
      rw [(insertByOrder_perm o xs).mem_iff] at hp
      rcases List.mem_cons.1 hp with rfl | hp
      · exact (RanksBefore.total (hd x List.mem_cons_self)).resolve_left hb
      · exact h.1 p hp

/-- Offers in rank order stand in it. -/
theorem inOrder_sorted {l : List Offer} (hd : DistinctIds l) : (inOrder l).Pairwise RanksBefore := by
  induction l with
  | nil => simp [inOrder]
  | cons x xs ih =>
    rw [DistinctIds, List.pairwise_cons] at hd
    exact insertByOrder_sorted (ih hd.2) fun p hp => hd.1 p ((inOrder_perm xs).mem_iff.1 hp)

/-! ### The offers of a line (R64 to R71) -/

theorem targets_iff (o : Offer) (l : SnapLine) : o.targets l = true ↔ TargetsLine o l := by
  unfold Offer.targets TargetsLine holdsDept
  cases o.target with
  | item n => simp
  | depts d => simp

theorem hasDept_eq (o : Offer) (d : Nat) : o.target.hasDept d = holdsDept o d := by
  unfold Target.hasDept holdsDept; cases o.target <;> rfl

theorem perLine_iff (o : Offer) : o.isPlainLineOffer = true ↔ PerLine o := by
  simp [Offer.isPlainLineOffer, PerLine]

theorem unitsLeft_eq (us : List Use) (o : Offer) (qty : Nat) : unitsLeft us o qty = o.withinLimit us qty := by
  have e : ∀ us : List Use, (us.filter fun u => decide (u.offer = o.id)) = us.filter (·.offer == o.id) := by
    intro us; congr 1
  simp only [unitsLeft, Offer.withinLimit, usedUnits, e, Bool.decide_or]
  rfl

theorem saving_eq (o : Offer) (l : SnapLine) (base : Nat) : o.saving l base = savingOn o l base := by
  unfold Offer.saving savingOn
  cases o.kind <;> simp only
  split
  · rfl
  · rw [Nat.sub_eq_zero_of_le (by omega), Nat.mul_zero]

theorem itemQuantity_eq (item : Nat) (ls : List SnapLine) :
    itemQuantity item ls =
      ((ls.filter fun l => l.item = item ∧ l.noOffers = false ∧ l.override = none).map (·.qty)).sum := by
  unfold itemQuantity
  congr 2
  apply List.filter_congr
  intro l _
  rw [Bool.eq_iff_iff]
  cases h : l.override <;> simp [SnapLine.eligible, h, and_comm]

theorem breakFor_iff (os : List Offer) (all : List SnapLine) (item : Nat) (o : Offer) :
    o ∈ os.filter (Offer.breakFor item (itemQuantity item all)) ↔ EarnsBreak os all item o := by
  rw [List.mem_filter, EarnsBreak, itemQuantity_eq]
  simp [Offer.breakFor, and_assoc]

/-- The QTY_BREAK selected is the best one earned (R66). -/
theorem selectedBreak_best {os : List Offer} (hd : DistinctIds os) (all : List SnapLine) (item : Nat) (o : Offer) :
    selectedBreak os all item = some o ↔ BestOf (EarnsBreak os all item) (·.threshold) o := by
  have hd' : DistinctIds (os.filter (Offer.breakFor item (itemQuantity item all))) := hd.filter _
  constructor
  · intro h
    exact (pickBest_best hd' h).congr (breakFor_iff os all item) fun _ _ => rfl
  · intro h
    cases hp : selectedBreak os all item with
    | none =>
      rw [selectedBreak, pickBest_none] at hp
      have := (breakFor_iff os all item o).2 h.1
      rw [hp] at this; simp at this
    | some p =>
      have := (pickBest_best hd' hp).congr (breakFor_iff os all item) fun _ _ => rfl
      rw [this.unique h]

theorem exclusiveCandidates_iff {os : List Offer} (hd : DistinctIds os) (all : List SnapLine) (us : List Use)
    (l : SnapLine) (o : Offer) :
    o ∈ exclusiveCandidates os all us l ↔ ExclusiveFor os all us l o := by
  unfold exclusiveCandidates ExclusiveFor
  rw [List.mem_filter, unitsLeft_eq]
  simp only [Bool.and_eq_true, Bool.or_eq_true, targets_iff, perLine_iff, Bool.not_eq_true', beq_iff_eq, and_assoc]
  refine and_congr_right fun ho => and_congr_right fun _ => and_congr_right fun _ => ?_
  refine or_congr Iff.rfl ?_
  rw [← selectedBreak_best hd]
  constructor
  · intro ⟨_, h⟩
    cases hs : selectedBreak os all l.item with
    | none => simp [hs] at h
    | some p =>
      simp only [hs, Option.map_some, Option.some.injEq] at h
      have hp := ((selectedBreak_best hd all l.item p).1 hs).1.1
      rw [hd.eq_of_id hp ho h]
  · intro h
    exact ⟨((selectedBreak_best hd all l.item o).1 h).1.2.1, by simp [h]⟩

/-- The uses of the exclusive choice of a line: one, or none. -/
def exclusiveUses (os : List Offer) (all : List SnapLine) (us : List Use) (l : SnapLine) : List Use :=
  match exclusiveChoice os all us l with
  | some (o, cut) => [{ offer := o.id, qty := l.qty, saving := cut }]
  | none => []

/-- The uses of the exclusive choice of a line are those of R70. -/
theorem exclusiveUses_taken {os : List Offer} (hd : DistinctIds os) (all : List SnapLine) (us : List Use)
    (l : SnapLine) : ExclusiveTaken os all us l (exclusiveUses os all us l) := by
  have hd' : DistinctIds (exclusiveCandidates os all us l) := hd.filter _
  unfold exclusiveUses exclusiveChoice
  cases hp : pickBest (·.saving l l.amount) (exclusiveCandidates os all us l) with
  | none =>
    left
    rw [pickBest_none] at hp
    refine ⟨fun o ho => ?_, rfl⟩
    have := (exclusiveCandidates_iff hd all us l o).2 ho
    rw [hp] at this; simp at this
  | some o =>
    right
    have hb := (pickBest_best hd' hp).congr (exclusiveCandidates_iff hd all us l)
      (fun p _ => saving_eq p l l.amount)
    refine ⟨o, _, hb, rfl, ?_⟩
    simp only [saving_eq, SnapLine.roomIn, SnapLine.amount]
    by_cases hc : min (savingOn o l (l.qty * l.list)) (l.qty * l.list - l.qty * l.floor) = 0
    · simp only [if_pos hc]
    · simp only [if_neg hc]

/-- What stacks on the exclusive choice of a line. -/
def stackedUses (os : List Offer) (all : List SnapLine) (us : List Use) (l : SnapLine) : List Use :=
  let base := l.amount - savings (exclusiveUses os all us l)
  stack l base (l.roomIn base) (us ++ exclusiveUses os all us l) (stackables os l)

theorem priceEligible_eq (os : List Offer) (all : List SnapLine) (us : List Use) (l : SnapLine) :
    priceEligible os all us l =
      { result :=
          { line := l.number
            net := l.amount - savings (exclusiveUses os all us l) - savings (stackedUses os all us l)
            exclusive := match (exclusiveUses os all us l).head? with | some u => u.offer | none => 0
            stackable := (stackedUses os all us l).length }
        uses := exclusiveUses os all us l ++ stackedUses os all us l } := by
  unfold priceEligible stackedUses exclusiveUses
  cases exclusiveChoice os all us l <;> rfl

theorem stackables_mem (os : List Offer) (l : SnapLine) (o : Offer) :
    o ∈ stackables os l ↔ o ∈ os ∧ TargetsLine o l ∧ PerLine o ∧ o.stackable = true := by
  unfold stackables
  rw [(inOrder_perm _).mem_iff, List.mem_filter]
  simp only [Bool.and_eq_true, targets_iff, perLine_iff]
  exact and_congr_right fun _ => and_comm

/-- The turns of the stackable offers of a line, in order (R71). -/
theorem stack_turns (l : SnapLine) (base left : Nat) (us : List Use) (order : List Offer) :
    ∃ turns : List (Option Use), turns.length = order.length ∧ stack l base left us order = turns.filterMap id ∧
      ∀ n o, order[n]? = some o →
        let used := (turns.take n).filterMap id
        let saving := min (savingOn o l base) (left - (used.map (·.saving)).sum)
        turns[n]? = some (if unitsLeft (us ++ used) o l.qty = true ∧ 0 < saving
          then some { offer := o.id, qty := l.qty, saving := saving } else none) := by
  induction order generalizing left us with
  | nil => exact ⟨[], rfl, rfl, by simp⟩
  | cons o os ih =>
    by_cases hc : o.withinLimit us l.qty = true ∧ 0 < min (o.saving l base) left
    · obtain ⟨turns, h1, h2, h3⟩ := ih (left - min (o.saving l base) left)
        (us ++ [{ offer := o.id, qty := l.qty, saving := min (o.saving l base) left }])
      refine ⟨some { offer := o.id, qty := l.qty, saving := min (o.saving l base) left } :: turns, by simp [h1], ?_, ?_⟩
      · simp only [stack, if_pos hc]
        rw [h2]; simp
      · intro n p hn
        cases n with
        | zero =>
          simp only [List.getElem?_cons_zero, Option.some.injEq] at hn
          subst hn
          rw [saving_eq] at hc ⊢
          simp only [List.take_zero, List.filterMap_nil, List.map_nil, List.sum_nil, List.append_nil, Nat.sub_zero,
            unitsLeft_eq, if_pos hc, List.getElem?_cons_zero]
        | succ n =>
          have := h3 n p (by simpa using hn)
          simpa [List.append_assoc, Nat.sub_sub] using this
    · obtain ⟨turns, h1, h2, h3⟩ := ih left us
      refine ⟨none :: turns, by simp [h1], ?_, ?_⟩
      · simp only [stack, if_neg hc]
        rw [h2]; simp
      · intro n p hn
        cases n with
        | zero =>
          simp only [List.getElem?_cons_zero, Option.some.injEq] at hn
          subst hn
          rw [saving_eq] at hc
          simp only [List.take_zero, List.filterMap_nil, List.map_nil, List.sum_nil, List.append_nil, Nat.sub_zero,
            unitsLeft_eq, if_neg hc, List.getElem?_cons_zero]
        | succ n =>
          have := h3 n p (by simpa using hn)
          simpa using this

/-- A line is priced as R65 to R72 say. -/
theorem priceLine_priced {os : List Offer} (hd : DistinctIds os) (all : List SnapLine) (us : List Use) (l : SnapLine) :
    LinePriced os all us l (priceLine os all us l) := by
  refine ⟨fun p hp => ?_, fun ho hn => ?_, fun ho hn => ?_⟩
  · simp [priceLine, hp]
  · simp [priceLine, ho, hn, SnapLine.amount]
  · simp only [priceLine, ho, hn, Bool.false_eq_true, if_false]
    obtain ⟨turns, h1, h2, h3⟩ := stack_turns l (l.amount - savings (exclusiveUses os all us l))
      (l.roomIn (l.amount - savings (exclusiveUses os all us l))) (us ++ exclusiveUses os all us l) (stackables os l)
    exact ⟨exclusiveUses os all us l, stackedUses os all us l, _, exclusiveUses_taken hd all us l, rfl,
      ⟨stackables os l, turns, inOrder_sorted (hd.filter _), stackables_mem os l, h1, h2, h3⟩,
      priceEligible_eq os all us l⟩

/-- Each line is priced after the uses on the lines before it. -/
theorem priceLines_at (os : List Offer) (all : List SnapLine) (us : List Use) (ls : List SnapLine) :
    (priceLines os all us ls).length = ls.length ∧
      ∀ n l, ls[n]? = some l →
        (priceLines os all us ls)[n]? =
          some (priceLine os all (us ++ ((priceLines os all us ls).take n).flatMap (·.uses)) l) := by
  induction ls generalizing us with
  | nil => simp [priceLines]
  | cons x xs ih =>
    obtain ⟨h1, h2⟩ := ih (us ++ (priceLine os all us x).uses)
    refine ⟨by simp [priceLines, h1], fun n l hn => ?_⟩
    cases n with
    | zero =>
      simp only [List.getElem?_cons_zero, Option.some.injEq] at hn
      subst hn; simp [priceLines]
    | succ n =>
      have := h2 n l (by simpa using hn)
      simpa [priceLines, List.append_assoc] using this

/-! ### The parts of a quote (R73 to R75, R79, R81) -/

/-- An entry of the applied-offer list names its offer (R81). -/
theorem appliedEntry_offer {f : Figures} {o : Offer} {e : Applied} (h : appliedEntry f o = some e) : e.offer = o.id := by
  unfold appliedEntry at h
  split at h
  · split at h <;> simp at h; rw [← h]
  · dsimp only at h; split at h <;> simp at h; rw [← h]
  · dsimp only at h; split at h <;> simp at h; rw [← h]

/-- The entry of an offer in the applied-offer list is the one its figures give (R81). -/
theorem appliedEntry_of_mem {os : List Offer} (hd : DistinctIds os) {f : Figures} {o : Offer} (ho : o ∈ os)
    {e : Applied} (he : e ∈ os.filterMap (appliedEntry f)) (hi : e.offer = o.id) : appliedEntry f o = some e := by
  rw [List.mem_filterMap] at he
  obtain ⟨p, hp, h⟩ := he
  have := appliedEntry_offer h
  rw [hd.eq_of_id hp ho (by omega)] at h
  exact h

/-- With no entry left out, the 32 listed are all. -/
theorem take_listed {l : List Applied} (h : l.length - 32 = 0) : l.take 32 = l := List.take_of_length_le (by omega)

/-- The nets of a quote are those of the priced lines. -/
theorem netsOf_resolve (offers : List Offer) (x : Schedule) (q : Snapshot) :
    netsOf q (resolve offers x q) =
      q.lines.zip ((pricedLines (offers.filter q.applicable) q).map (·.result.net)) := by
  simp [netsOf, resolve, figures, List.map_map]
  rfl

/-- Every line of the snapshot is priced. -/
theorem length_pricedLines (os : List Offer) (q : Snapshot) : (pricedLines os q).length = q.lines.length :=
  (priceLines_at os q.lines [] q.lines).1

/-- The sum of all nets. -/
theorem netSum_priced (os : List Offer) (q : Snapshot) :
    netSum (fun _ => true) (q.lines.zip ((pricedLines os q).map (·.result.net))) =
      ((pricedLines os q).map (·.result.net)).sum := by
  unfold netSum
  rw [List.filter_eq_self.2 (by simp)]
  rw [List.map_snd_zip (by simp [length_pricedLines])]

/-- The spend offers that qualify (R73). -/
theorem qualifies_iff (os : List Offer) (ns : Nets) (o : Offer) :
    o ∈ os.filter (Offer.qualifies · ns) ↔ SpendQualifies os ns o := by
  rw [List.mem_filter, SpendQualifies]
  have : o.spend ns = ((ns.filter fun x => x.1.noOffers = false ∧ holdsDept o x.1.dept).map (·.2)).sum := by
    unfold Offer.spend netSum
    congr 2
    apply List.filter_congr
    intro x _
    rw [Bool.eq_iff_iff]
    simp [hasDept_eq]
  rw [← this]
  simp [Offer.qualifies]

/-- Spend offers give together what they are worth, at most what is left (R74). -/
theorem applySpends_sum (left : Nat) (os : List Offer) :
    savings (applySpends left os) = min (os.map (·.value)).sum left := by
  induction os generalizing left with
  | nil => simp [applySpends, savings]
  | cons o os ih =>
    simp only [applySpends]
    split
    · rw [ih]; simp; omega
    · have := ih (left - min o.value left)
      simp only [savings, List.map_cons, List.sum_cons] at this ⊢
      rw [this]; omega

/-- What one spend offer gives in its turn (R74). -/
theorem applySpends_find (left : Nat) (os : List Offer) (hd : DistinctIds os) (n : Nat) (o : Offer)
    (h : os[n]? = some o) :
    (applySpends left os).find? (·.offer == o.id) =
      if min o.value (left - ((os.take n).map (·.value)).sum) = 0 then none
      else some { offer := o.id, qty := 0, saving := min o.value (left - ((os.take n).map (·.value)).sum) } := by
  induction os generalizing left n with
  | nil => simp at h
  | cons p ps ih =>
    rw [DistinctIds, List.pairwise_cons] at hd
    cases n with
    | zero =>
      simp at h; subst h
      have hz : ∀ left', (applySpends left' ps).find? (·.offer == p.id) = none := by
        intro left'
        rw [List.find?_eq_none]
        intro u hu
        have : ∀ l' (qs : List Offer), (∀ r ∈ qs, p.id ≠ r.id) → ∀ u ∈ applySpends l' qs, u.offer ≠ p.id := by
          intro l' qs
          induction qs generalizing l' with
          | nil => simp [applySpends]
          | cons r rs ih2 =>
            intro hr u hu
            simp only [applySpends] at hu
            split at hu
            · exact ih2 _ (fun r' h' => hr r' (List.mem_cons_of_mem _ h')) u hu
            · rcases List.mem_cons.1 hu with rfl | hu
              · exact fun e => hr r List.mem_cons_self e.symm
              · exact ih2 _ (fun r' h' => hr r' (List.mem_cons_of_mem _ h')) u hu
        simp [this _ _ hd.1 u hu]
      simp only [applySpends, List.take_zero, List.map_nil, List.sum_nil, Nat.sub_zero]
      split
      · exact hz _
      · simp
    | succ n =>
      have hm : o ∈ ps := List.mem_of_getElem? (by simpa using h)
      have hne := hd.1 o hm
      have e1 := ih left hd.2 n (by simpa using h)
      have e2 := ih (left - min p.value left) hd.2 n (by simpa using h)
      simp only [applySpends, List.take_succ_cons, List.map_cons, List.sum_cons]
      generalize ((ps.take n).map (·.value)).sum = w at e1 e2 ⊢
      split
      · rw [e1, show left - (p.value + w) = left - w by omega]
      · rw [List.find?_cons_of_neg (by simpa using hne), e2, show left - min p.value left - w = left - (p.value + w) by omega]

/-- The spend offers taken: the best exclusive one and every stackable one (R73). -/
theorem spendOffers_mem {os : List Offer} (hd : DistinctIds os) (ns : Nets) (o : Offer) :
    o ∈ spendOffers os ns ↔ SpendQualifies os ns o ∧
      (o.stackable = true ∨ BestOf (fun p => SpendQualifies os ns p ∧ p.stackable = false) (·.value) o) := by
  have hq : DistinctIds (os.filter (Offer.qualifies · ns)) := hd.filter _
  have hq2 : DistinctIds ((os.filter (Offer.qualifies · ns)).filter (!·.stackable)) := hq.filter _
  have hm : ∀ p, p ∈ (os.filter (Offer.qualifies · ns)).filter (!·.stackable) ↔
      SpendQualifies os ns p ∧ p.stackable = false := by
    intro p; rw [List.mem_filter, qualifies_iff]; simp
  unfold spendOffers
  dsimp only
  rw [(inOrder_perm _).mem_iff, List.mem_append, List.mem_filter, qualifies_iff]
  constructor
  · rintro (h | h)
    · rw [Option.mem_toList] at h
      have := (pickBest_best hq2 h).congr hm fun _ _ => rfl
      exact ⟨this.1.1, .inr this⟩
    · exact ⟨h.1, .inl h.2⟩
  · rintro ⟨h1, h | h⟩
    · exact .inr ⟨h1, h⟩
    · left
      rw [Option.mem_toList]
      cases hp : pickBest (·.value) ((os.filter (Offer.qualifies · ns)).filter (!·.stackable)) with
      | none => rw [pickBest_none] at hp; have := (hm o).2 h.1; rw [hp] at this; simp at this
      | some p =>
        have := (pickBest_best hq2 hp).congr hm fun _ _ => rfl
        rw [this.unique h]

/-- No spend offer is taken twice. -/
theorem spendOffers_distinct {os : List Offer} (hd : DistinctIds os) (ns : Nets) :
    DistinctIds ((pickBest (·.value) ((os.filter (Offer.qualifies · ns)).filter (!·.stackable))).toList ++
      (os.filter (Offer.qualifies · ns)).filter (·.stackable)) := by
  have hq : DistinctIds (os.filter (Offer.qualifies · ns)) := hd.filter _
  have hq2 : DistinctIds ((os.filter (Offer.qualifies · ns)).filter (!·.stackable)) := hq.filter _
  rw [DistinctIds, List.pairwise_append]
  refine ⟨?_, hq.filter _, ?_⟩
  · cases pickBest (·.value) ((os.filter (Offer.qualifies · ns)).filter (!·.stackable)) <;> simp
  intro a ha b hb e
  rw [Option.mem_toList] at ha
  have h1 : a ∈ (os.filter (Offer.qualifies · ns)).filter (!·.stackable) := (pickBest_best hq2 ha).1
  rw [List.mem_filter] at h1 hb
  have := hq.eq_of_id h1.1 hb.1 e
  subst this
  simp [hb.2] at h1

/-- What each coupon takes off the payable that the coupons before it leave (R75). -/
theorem couponAmounts_at (payable : Nat) (cs : List SnapCoupon) :
    (couponAmounts payable cs).length = cs.length ∧ ∀ (n : Nat) (k : SnapCoupon), cs[n]? = some k →
      (couponAmounts payable cs)[n]? = some (k.amountOn (payable - ((couponAmounts payable cs).take n).sum)) := by
  induction cs generalizing payable with
  | nil => simp [couponAmounts]
  | cons c cs ih =>
    obtain ⟨h1, h2⟩ := ih (payable - c.amountOn payable)
    refine ⟨by simp [couponAmounts, h1], fun n k hn => ?_⟩
    cases n with
    | zero => simp at hn; subst hn; simp [couponAmounts]
    | succ n =>
      have := h2 n k (by simpa using hn)
      simpa [couponAmounts, Nat.sub_sub] using this

theorem foldl_max_eq (l : List Nat) (a : Nat) : l.foldl max a = max a (l.foldl max 0) := by
  induction l generalizing a with
  | nil => simp
  | cons x xs ih => simp only [List.foldl_cons]; rw [ih (max a x), ih (max 0 x)]; omega

theorem le_foldl_max {l : List Nat} {a : Nat} (h : a ∈ l) : a ≤ l.foldl max 0 := by
  induction l with
  | nil => simp at h
  | cons x xs ih =>
    simp only [List.foldl_cons]; rw [foldl_max_eq]
    rcases List.mem_cons.1 h with rfl | h
    · omega
    · have := ih h; omega

/-- The best offer by value has the greatest value. -/
theorem best_value {l : List Offer} {o : Offer} (h : BestOf (· ∈ l) (·.value) o) :
    (l.map (·.value)).foldl max 0 = o.value := by
  have h1 : o.value ≤ (l.map (·.value)).foldl max 0 := le_foldl_max (List.mem_map_of_mem h.1)
  have h2 : ∀ p ∈ l, p.value ≤ o.value := by
    intro p hp
    by_cases e : p = o
    · exact Nat.le_of_eq (e ▸ rfl)
    · rcases h.2 p hp e with h | h <;> simp only at h <;> omega
  have h3 : (l.map (·.value)).foldl max 0 ≤ o.value := by
    clear h h1
    induction l with
    | nil => simp
    | cons x xs ih =>
      simp only [List.map_cons, List.foldl_cons]; rw [foldl_max_eq]
      have := ih (fun p hp => h2 p (List.mem_cons_of_mem _ hp))
      have := h2 x List.mem_cons_self
      omega
  omega

/-- The boosts on a department (R79). -/
theorem boosts_filter (os : List Offer) (d : Nat) :
    (os.filter fun o => decide (o.kind = .pointsBoost ∧ holdsDept o d = true)) =
      os.filter fun o => o.kind == .pointsBoost && o.target.hasDept d := by
  apply List.filter_congr
  intro o _
  rw [Bool.eq_iff_iff]; simp [hasDept_eq]

end Sys2Proof.Machine
end

