-- ==== Sys2Proof/Laws/Slots.lean ====
section
/-! SUPPORT. What the end of a step does to the slots of the main queue (R169), what a take does to its queue (R172) and
what a HOLD record made pending does to the pending ones (R173), each said once against the law it keeps. -/

namespace Sys2Proof.Machine

/-! ### The order left open (assumption 5) -/

theorem insertByRank_perm {α : Type} (n : Nat) (code : α → Nat) (x : α) (l : List α) :
    (insertByRank n code x l).Perm (x :: l) := by
  induction l with
  | nil => exact .refl _
  | cons y ys ih =>
    unfold insertByRank
    split
    · exact .refl _
    · exact (ih.cons y).trans (.swap x y ys)

/-- An open order is an order of the same things. -/
theorem freeOrder_perm {α : Type} (n : Nat) (code : α → Nat) (l : List α) : (freeOrder n code l).Perm l := by
  induction l with
  | nil => exact .refl _
  | cons x xs ih => exact (insertByRank_perm n code x _).trans (ih.cons x)

/-! ### The slot request list (R169) -/

theorem needsSlot_eq (s : State) : needsSlot s = s.claimStands := by
  funext c
  rw [Bool.eq_iff_iff]
  cases c with
  | laneTake =>
    simp only [needsSlot, State.claimStands, State.nextLaneRequest, Bool.and_eq_true, decide_eq_true_eq,
      beq_iff_eq, List.find?_isSome, List.any_eq_true]
    refine and_congr_right fun _ => exists_congr fun f => and_congr_right fun _ => ?_
    cases laneOf f.lane with
    | none => simp
    | some l => cases h : (s.lane l).state <;> simp [h, LaneState.busy]
  | bulkTake => simp [needsSlot, State.claimStands]
  | stream l => simp [needsSlot, State.claimStands, Option.isSome_iff_ne_none]
  | owed l => rfl

theorem mem_allClaims (c : Claim) : c ∈ allClaims := by
  cases c with
  | laneTake => decide
  | bulkTake => decide
  | stream l => revert l; decide
  | owed l => revert l; decide

theorem allClaims_nodup : allClaims.Nodup := by decide

@[simp] theorem claimStands_dropClaims (s : State) : (dropClaims s).claimStands = s.claimStands := by
  funext c; cases c <;> rfl
@[simp] theorem claimStands_serveClaims (s : State) : (serveClaims s).claimStands = s.claimStands := by
  funext c; cases c <;> rfl
@[simp] theorem claimStands_joinClaims (s : State) : (joinClaims s).claimStands = s.claimStands := by
  unfold joinClaims; split
  · funext c; cases c <;> rfl
  · rfl

/-- The claims that join the slot request list: every one that needs a slot and has neither a place nor a slot, once
each, and only where no slot is free. -/
theorem joinClaims_requests (v : State) :
    ∃ new, (joinClaims v).mainQ.requests = v.mainQ.requests ++ new ∧ (v.freeSlots ≠ 0 → new = []) ∧
      (v.freeSlots = 0 → new.Nodup ∧
        ∀ c, c ∈ new ↔ v.claimStands c = true ∧ c ∉ v.mainQ.requests ∧ c ∉ v.mainQ.served) ∧
      (joinClaims v).draws = if 2 ≤ new.length then v.draws + 1 else v.draws := by
  by_cases hz : v.freeSlots = 0
  · have hp := freeOrder_perm v.draws Claim.code (newClaims v)
    refine ⟨freeOrder v.draws Claim.code (newClaims v), by simp [joinClaims, hz], fun h => absurd hz h, fun _ => ?_, ?_⟩
    · refine ⟨hp.symm.nodup (allClaims_nodup.filter _), fun c => ?_⟩
      rw [hp.mem_iff, newClaims, List.mem_filter]
      simp [mem_allClaims, and_assoc]
    · simp only [joinClaims, if_pos hz, drawsAfter, hp.length_eq]
  · exact ⟨[], by simp [joinClaims, hz], fun _ => rfl, fun h => absurd h hz, by simp [joinClaims, hz]⟩

/-- The end of a step serves the slots of the main queue. -/
theorem settleClaims_served (u : State) :
    SlotsServed u.mainQ.requests u.mainQ.served u.draws (settleClaims u) := by
  have hn : needsSlot (settleClaims u) = u.claimStands := by rw [needsSlot_eq]; simp [settleClaims]
  have ho : (settleClaims u).occupied = u.occupied := by simp [State.occupied]
  have hs : (dropClaims u).freeSlots =
      24 - (u.occupied + u.mainQ.reserved + (u.mainQ.served.filter u.claimStands).length) := rfl
  have hz : (serveClaims (dropClaims u)).freeSlots =
      (dropClaims u).freeSlots - (u.mainQ.requests.filter u.claimStands).length := by
    simp only [State.freeSlots, serveClaims, List.length_append, List.length_take]
    change 24 - (u.occupied + u.mainQ.reserved + _) = _
    rw [show State.occupied (dropClaims u) = u.occupied from rfl]
    simp only [dropClaims]
    omega
  obtain ⟨new, h1, h2, h3, h4⟩ := joinClaims_requests (serveClaims (dropClaims u))
  simp only [claimStands_serveClaims, claimStands_dropClaims, serveClaims_draws, dropClaims_draws] at h3 h4
  unfold SlotsServed
  rw [hn, ho, settleClaims_reserved]
  dsimp only
  rw [← hs]
  have hq : (settleClaims u).mainQ.served = (serveClaims (dropClaims u)).mainQ.served := by simp [settleClaims]
  refine ⟨by rw [hq]; rfl, new, h1, fun h => h2 (by omega), fun h => ?_, h4⟩
  rw [hq]
  exact h3 (by omega)

theorem settleClaims_settled (u : State) : ClaimsSettled u (settleClaims u) := by
  refine ⟨?_, settleClaims_served u⟩
  apply State.ext <;> simp
  apply MainQueue.ext <;> simp

/-- Slots served from a list without repeats leave one (R169). -/
theorem SlotsServed.sound {requests served : List Claim} {draws : Nat} {t : State}
    (h : SlotsServed requests served draws t) (hn : (requests ++ served).Nodup) : RequestsSound t := by
  obtain ⟨hs, new, hq, h1, h2, _⟩ := h
  generalize he : 24 - (t.occupied + t.mainQ.reserved + (served.filter (needsSlot t)).length) = free at hs hq h1 h2
  have hf : t.freeSlots = free - (requests.filter (needsSlot t)).length := by
    simp only [State.freeSlots, hs, List.length_append, List.length_take]
    omega
  have hk : (requests.filter (needsSlot t) ++ served.filter (needsSlot t)).Nodup := by
    rw [← List.filter_append]; exact hn.filter _
  have hb : ((requests.filter (needsSlot t)).drop free ++
      (served.filter (needsSlot t) ++ (requests.filter (needsSlot t)).take free)).Nodup := by
    have he : requests.filter (needsSlot t) ++ served.filter (needsSlot t) =
        (requests.filter (needsSlot t)).take free ++
          ((requests.filter (needsSlot t)).drop free ++ served.filter (needsSlot t)) := by
      rw [← List.append_assoc, List.take_append_drop]
    rw [he] at hk
    rw [← List.append_assoc]
    exact List.perm_append_comm.nodup hk
  refine ⟨?_, fun h => ?_⟩
  · rw [hq, hs]
    by_cases hl : (requests.filter (needsSlot t)).length < free
    · rw [h1 hl, List.append_nil]; exact hb
    · obtain ⟨hd, hm⟩ := h2 (by omega)
      rw [List.append_assoc]
      refine (List.perm_append_comm.append_left _).nodup (?_ : ((_ ++ (_ ++ new)) : List Claim).Nodup)
      rw [← List.append_assoc, List.nodup_append]
      refine ⟨hb, hd, fun x hx y hy e => ?_⟩
      subst e
      have hy := (hm x).1 hy
      rw [hs] at hy
      rcases List.mem_append.1 hx with hx | hx
      · exact hy.2.1 hx
      · exact hy.2.2 hx
  · rw [hf]
    by_cases hl : (requests.filter (needsSlot t)).length < free
    · rw [hq, h1 hl, List.drop_eq_nil_of_le (by omega)] at h; simp at h
    · omega

/-! ### A take and the end of a congestion episode (R172) -/

theorem makeHold_joins (scope : HoldScope) (time : Nat) (s : State) :
    HoldJoins scope time s.link.deviceHolds (makeHold scope time s).link.deviceHolds := by
  refine ⟨fun ⟨h, hm, he⟩ => ?_, fun hn => ?_⟩
  · have ha : s.link.deviceHolds.any (·.scope == scope) = true := by
      rw [List.any_eq_true]; exact ⟨h, hm, by simp [he]⟩
    simp only [makeHold, replaceHold, ha, if_true]
    refine List.map_congr_left fun x _ => ?_
    by_cases hx : x.scope = scope
    · subst hx; simp
    · simp [hx]
  · have ha : s.link.deviceHolds.any (·.scope == scope) = false := by
      rw [List.any_eq_false]; intro x hx; simp [hn x hx]
    simp [makeHold, replaceHold, ha]

theorem removeFrame_taken (q : QueueId) (f : Frame) (s : State) : FrameTaken q f s (removeFrame q f s) := by
  unfold FrameTaken removeFrame clearCongestion
  have hi : ∀ x, (s.setInbound q x).inbound q = x := by intro x; cases q <;> rfl
  have hc : ∀ x, (s.setInbound q x).config = s.config := by intro x; cases q <;> rfl
  have hh : ∀ x y, ((s.setInbound q x).setInbound q y).link = s.link := by intro x y; cases q <;> rfl
  have hd : ∀ x y, ((s.setInbound q x).setInbound q y).config = s.config := by intro x y; cases q <;> rfl
  have hj : ∀ x y, ((s.setInbound q x).setInbound q y).inbound q = y := by intro x y; cases q <;> rfl
  simp only [hi]
  by_cases ho : (s.inbound q).congested = true ∧ (s.inbound q).frames.erase f = []
  · simp only [ho.1, ho.2, List.isEmpty_nil, Bool.and_self, if_true, hd]
    refine ⟨fun h => absurd ⟨trivial, trivial⟩ h, fun _ => ?_⟩
    by_cases hr : s.config.release = true
    · simp only [hr, if_true]
      refine ⟨?_, fun _ => ?_, fun h => by simp at h⟩
      · rw [show ∀ v, (makeHold (queueScope q) 0 v).inbound q = v.inbound q by intro v; cases q <;> rfl, hj]
      · have := makeHold_joins (queueScope q) 0 ((s.setInbound q { s.inbound q with frames := [] }).setInbound q
          { frames := [], congested := false, renew := none })
        rw [hh] at this
        cases q <;> exact this
    · simp only [hr]
      exact ⟨by simp [hj], fun h => by simp at h, fun _ => by simp⟩
  · have hb : ((s.inbound q).congested && ((s.inbound q).frames.erase f).isEmpty) = false := by
      rw [Bool.and_eq_false_iff]
      by_cases h : (s.inbound q).congested = true
      · right
        rw [List.isEmpty_eq_false_iff]
        exact fun e => ho ⟨h, e⟩
      · left; simpa using h
    simp only [hb]
    exact ⟨fun _ => ⟨by simp [hi], by simp⟩, fun h => absurd h ho⟩

/-- The take of a lane request from the pool. -/
theorem laneTaken_taken (f : Frame) (l : LaneNo) (s : State) : FrameTaken .pool f s (laneTaken f l s) := by
  have h := removeFrame_taken .pool f (reserveSlot (useSlot .laneTake s))
  unfold FrameTaken at h ⊢
  simpa [laneTaken, State.inbound] using h

/-- The take of a frame from the bulk queue. -/
theorem bulkTaken_taken (f : Frame) (s : State) : FrameTaken .bulk f s (bulkTaken f s) := by
  have h := removeFrame_taken .bulk f (reserveSlot (useSlot .bulkTake s))
  unfold FrameTaken at h ⊢
  simpa [bulkTaken, State.inbound] using h

end Sys2Proof.Machine
end

