-- ==== Sys2Proof/Laws/Requests.lean ====
section
/-! SUPPORT. What a request command does, said once: a lane or bulk request that the device takes now ends in the
answer its body gives, a take leaves alone everything but its queue, its slot and the timers it touches, and a request
that names a line finds it. -/

namespace Sys2Proof.Machine

@[simp] theorem laneOf_zero : laneOf 0#8 = none := by decide

theorem lane_ne_zero {b : Byte} {l : LaneNo} (h : laneOf b = some l) : b ≠ 0 := by
  intro e; subst e; simp at h

theorem takeLane_of {s : State} {k : Byte} {r : Req} {l : LaneNo} (h : TakesLane s k r l) :
    takeLane (r.frame k) l s = some (laneTaken (r.frame k) l s) := by
  obtain ⟨_, h1, _, h2, h3⟩ := h
  simp [takeLane, h1, h2, h3]

theorem takeBulk_of {s : State} {f : Frame} (h : TakesBulk s f) : takeBulk f s = some (bulkTaken f s) := by
  obtain ⟨_, h1, h2, h3⟩ := h
  simp [takeBulk, h1, h2, h3]

/-- A lane request the device takes now ends in the answer of its body. -/
theorem laneRequest_takes {s : State} {k : Byte} {r : Req} {l : LaneNo} (h : TakesLane s k r l)
    (gate : LaneState → Option OutcomeCode) (len : Nat) (body : LaneNo → State → State × Answer) :
    laneRequest k gate len r body s = .next (settleClaims (answerLane k r l
      (laneBody gate len r l (body l) (laneTaken (r.frame k) l s)))) := by
  have h0 : ¬ r.lane = 0#8 := lane_ne_zero h.2.2.1
  simp [laneRequest, whenLive, h.1, h0, h.2.2.1, takeLane_of h]

/-- A bulk request the device takes now ends in the answer of its body. -/
theorem bulkRequest_takes {s : State} {k : Byte} {r : Req} (h0 : r.lane = 0) (h : TakesBulk s (r.frame k))
    (body : State → State × Answer) :
    bulkRequest k r body s = .next (settleClaims (answerBulk k r (body (bulkTaken (r.frame k) s)))) := by
  simp [bulkRequest, whenLive, h.1, h0, takeBulk_of h]

/-- A lane request with LANE 0 is a take from the bulk queue answered BAD_LANE (R6). -/
theorem laneRequest_bulk {s : State} {k : Byte} {r : Req} (h0 : r.lane = 0) (h : TakesBulk s (r.frame k))
    (gate : LaneState → Option OutcomeCode) (len : Nat) (body : LaneNo → State → State × Answer) :
    laneRequest k gate len r body s = .next (settleClaims (answerBulk k r
      (bulkTaken (r.frame k) s, .reply .badLane []))) := by
  simp [laneRequest, whenLive, h.1, h0, takeBulk_of h]

/-- A bulk request with LANE 1 to 8 is a take from the lane pool answered BAD_LANE (R6). -/
theorem bulkRequest_lane {s : State} {k : Byte} {r : Req} {l : LaneNo} (h : TakesLane s k r l)
    (body : State → State × Answer) :
    bulkRequest k r body s = .next (settleClaims (answerLane k r l
      (laneTaken (r.frame k) l s, .reply .badLane []))) := by
  have h0 : ¬ r.lane = 0#8 := lane_ne_zero h.2.2.1
  simp [bulkRequest, whenLive, h.1, h0, h.2.2.1, takeLane_of h]

/-! ### Fields a take leaves alone -/

@[simp] theorem laneTaken_pending (f : Frame) (l : LaneNo) (s : State) : (laneTaken f l s).pending = s.pending := by
  simp [laneTaken]
@[simp] theorem laneTaken_now (f : Frame) (l : LaneNo) (s : State) : (laneTaken f l s).now = s.now := by
  simp [laneTaken]
@[simp] theorem laneTaken_draws (f : Frame) (l : LaneNo) (s : State) : (laneTaken f l s).draws = s.draws := by
  simp [laneTaken]
@[simp] theorem laneTaken_bulk (f : Frame) (l : LaneNo) (s : State) : (laneTaken f l s).bulk = s.bulk := by
  simp [laneTaken]
@[simp] theorem laneTaken_notices (f : Frame) (l : LaneNo) (s : State) : (laneTaken f l s).notices = s.notices := by
  simp [laneTaken]
@[simp] theorem laneTaken_ctxs (f : Frame) (l : LaneNo) (s : State) : (laneTaken f l s).ctxs = s.ctxs := by
  simp [laneTaken]
@[simp] theorem laneTaken_parks (f : Frame) (l : LaneNo) (s : State) : (laneTaken f l s).parks = s.parks := by
  simp [laneTaken]
@[simp] theorem laneTaken_banks (f : Frame) (l : LaneNo) (s : State) : (laneTaken f l s).banks = s.banks := by
  simp [laneTaken]
@[simp] theorem laneTaken_claims (f : Frame) (l : LaneNo) (s : State) : (laneTaken f l s).claims = s.claims := by
  simp [laneTaken]
@[simp] theorem laneTaken_authority (f : Frame) (l : LaneNo) (s : State) : (laneTaken f l s).authority = s.authority := by
  simp [laneTaken]
@[simp] theorem laneTaken_sched (f : Frame) (l : LaneNo) (s : State) : (laneTaken f l s).sched = s.sched := by
  simp [laneTaken]
@[simp] theorem laneTaken_streams (f : Frame) (l : LaneNo) (s : State) : (laneTaken f l s).streams = s.streams := by
  simp [laneTaken]
@[simp] theorem laneTaken_conds (f : Frame) (l : LaneNo) (s : State) : (laneTaken f l s).conds = s.conds := by
  simp [laneTaken]
@[simp] theorem laneTaken_config (f : Frame) (l : LaneNo) (s : State) : (laneTaken f l s).config = s.config := by
  simp [laneTaken]
@[simp] theorem laneTaken_device (f : Frame) (l : LaneNo) (s : State) : (laneTaken f l s).device = s.device := by
  simp [laneTaken]
@[simp] theorem bulkTaken_pending (f : Frame) (s : State) : (bulkTaken f s).pending = s.pending := by
  simp [bulkTaken]
@[simp] theorem bulkTaken_now (f : Frame) (s : State) : (bulkTaken f s).now = s.now := by
  simp [bulkTaken]
@[simp] theorem bulkTaken_draws (f : Frame) (s : State) : (bulkTaken f s).draws = s.draws := by
  simp [bulkTaken]
@[simp] theorem bulkTaken_pool (f : Frame) (s : State) : (bulkTaken f s).pool = s.pool := by
  simp [bulkTaken]
@[simp] theorem bulkTaken_notices (f : Frame) (s : State) : (bulkTaken f s).notices = s.notices := by
  simp [bulkTaken]
@[simp] theorem bulkTaken_lanes (f : Frame) (s : State) : (bulkTaken f s).lanes = s.lanes := by
  simp [bulkTaken]
@[simp] theorem bulkTaken_ctxs (f : Frame) (s : State) : (bulkTaken f s).ctxs = s.ctxs := by
  simp [bulkTaken]
@[simp] theorem bulkTaken_parks (f : Frame) (s : State) : (bulkTaken f s).parks = s.parks := by
  simp [bulkTaken]
@[simp] theorem bulkTaken_banks (f : Frame) (s : State) : (bulkTaken f s).banks = s.banks := by
  simp [bulkTaken]
@[simp] theorem bulkTaken_claims (f : Frame) (s : State) : (bulkTaken f s).claims = s.claims := by
  simp [bulkTaken]
@[simp] theorem bulkTaken_accounts (f : Frame) (s : State) : (bulkTaken f s).accounts = s.accounts := by
  simp [bulkTaken]
@[simp] theorem bulkTaken_authority (f : Frame) (s : State) : (bulkTaken f s).authority = s.authority := by
  simp [bulkTaken]
@[simp] theorem bulkTaken_sched (f : Frame) (s : State) : (bulkTaken f s).sched = s.sched := by
  simp [bulkTaken]
@[simp] theorem bulkTaken_streams (f : Frame) (s : State) : (bulkTaken f s).streams = s.streams := by
  simp [bulkTaken]
@[simp] theorem bulkTaken_conds (f : Frame) (s : State) : (bulkTaken f s).conds = s.conds := by
  simp [bulkTaken]
@[simp] theorem bulkTaken_config (f : Frame) (s : State) : (bulkTaken f s).config = s.config := by
  simp [bulkTaken]
@[simp] theorem bulkTaken_device (f : Frame) (s : State) : (bulkTaken f s).device = s.device := by
  simp [bulkTaken]

theorem laneTaken_link (f : Frame) (l : LaneNo) (s : State) :
    (laneTaken f l s).link = { s.link with deviceHolds := (laneTaken f l s).link.deviceHolds } := by
  have h := removeFrame_link .pool f (reserveSlot (useSlot .laneTake s))
  simpa [laneTaken] using h
theorem bulkTaken_link (f : Frame) (s : State) :
    (bulkTaken f s).link = { s.link with deviceHolds := (bulkTaken f s).link.deviceHolds } := by
  have h := removeFrame_link .bulk f (reserveSlot (useSlot .bulkTake s))
  simpa [bulkTaken] using h
@[simp] theorem laneTaken_pool_frames (f : Frame) (l : LaneNo) (s : State) :
    (laneTaken f l s).pool.frames = s.pool.frames.erase f := by simp [laneTaken]
@[simp] theorem bulkTaken_bulk_frames (f : Frame) (s : State) :
    (bulkTaken f s).bulk.frames = s.bulk.frames.erase f := by simp [bulkTaken]
@[simp] theorem laneTaken_frames (f : Frame) (l : LaneNo) (s : State) :
    (laneTaken f l s).mainQ.frames = s.mainQ.frames := by simp [laneTaken]
@[simp] theorem laneTaken_reserved (f : Frame) (l : LaneNo) (s : State) :
    (laneTaken f l s).mainQ.reserved = s.mainQ.reserved + 1 := by simp [laneTaken]
@[simp] theorem bulkTaken_frames (f : Frame) (s : State) :
    (bulkTaken f s).mainQ.frames = s.mainQ.frames := by simp [bulkTaken]
@[simp] theorem bulkTaken_reserved (f : Frame) (s : State) :
    (bulkTaken f s).mainQ.reserved = s.mainQ.reserved + 1 := by simp [bulkTaken]

/-! ### The timers a take touches (R5, R125, R158) -/

theorem startIdle_lane (n : Nat) (l m : LaneNo) (s : State) :
    (startIdle n l s).lane m = if m = l then
      { s.lane l with idleStage := if s.config.idleTime = 0 then 0 else n, idleTimer := idleStart s }
    else s.lane m := by
  unfold startIdle idleStart State.after
  split <;> simp [lane_setLane, *]

/-- A take on a lane in OPEN or TOTALLED restarts its idle timer and leaves the rest of the record. -/
theorem touchIdle_lane_on {l : LaneNo} {s : State}
    (h : (s.lane l).state = .opened ∨ (s.lane l).state = .totalled) (m : LaneNo) :
    (touchIdle l s).lane m = if m = l then watched s l else s.lane m := by
  have e : touchIdle l s = startIdle 0 l s := by
    unfold touchIdle; cases h with
    | inl h => rw [h]
    | inr h => rw [h]
  rw [e, startIdle_lane]
  split
  · next h => subst h; simp [watched]
  · rfl

/-- A take on a lane in another state leaves its record. -/
theorem touchIdle_off {l : LaneNo} {s : State}
    (h : (s.lane l).state ≠ .opened) (h' : (s.lane l).state ≠ .totalled) : touchIdle l s = s := by
  unfold touchIdle; split <;> simp_all

theorem laneTaken_lane_on {f : Frame} {l : LaneNo} {s : State}
    (h : (s.lane l).state = .opened ∨ (s.lane l).state = .totalled) (m : LaneNo) :
    (laneTaken f l s).lane m = if m = l then watched s l else s.lane m := by
  have e : ∀ n, (removeFrame .pool f (reserveSlot (useSlot .laneTake s))).lane n = s.lane n :=
    lane_congr (by simp)
  unfold laneTaken
  rw [lane_congr (touchReservation_lanes _ _), touchIdle_lane_on (by rw [e]; exact h)]
  simp [watched, idleStart, e]

theorem laneTaken_lanes_off {f : Frame} {l : LaneNo} {s : State}
    (h : (s.lane l).state ≠ .opened) (h' : (s.lane l).state ≠ .totalled) :
    (laneTaken f l s).lanes = s.lanes := by
  have e : ∀ n, (removeFrame .pool f (reserveSlot (useSlot .laneTake s))).lane n = s.lane n :=
    lane_congr (by simp)
  unfold laneTaken
  rw [touchReservation_lanes, touchIdle_off (by rw [e]; exact h) (by rw [e]; exact h')]
  simp

/-- The state of a lane is the same after a take. -/
@[simp] theorem laneTaken_state (f : Frame) (l m : LaneNo) (s : State) :
    ((laneTaken f l s).lane m).state = (s.lane m).state := by
  by_cases h : (s.lane l).state = .opened ∨ (s.lane l).state = .totalled
  · rw [laneTaken_lane_on h]; split
    · next h => subst h; rfl
    · rfl
  · rw [lane_congr (laneTaken_lanes_off (fun e => h (.inl e)) (fun e => h (.inr e)))]

/-- The context of a lane is the same after a take. -/
@[simp] theorem laneTaken_lane_ctx (f : Frame) (l m : LaneNo) (s : State) :
    ((laneTaken f l s).lane m).ctx = (s.lane m).ctx := by
  by_cases h : (s.lane l).state = .opened ∨ (s.lane l).state = .totalled
  · rw [laneTaken_lane_on h]; split
    · next h => subst h; rfl
    · rfl
  · rw [lane_congr (laneTaken_lanes_off (fun e => h (.inl e)) (fun e => h (.inr e)))]

@[simp] theorem laneTaken_ctx (f : Frame) (l : LaneNo) (s : State) (c : CtxNo) :
    (laneTaken f l s).ctx c = s.ctx c := ctx_congr (by simp) c

/-- A take restarts the timer of the reservation of the lane's context. -/
theorem laneTaken_accounts {f : Frame} {l : LaneNo} {s : State} {c : CtxNo} (h : (s.lane l).ctx = some c) :
    (laneTaken f l s).accounts = accountsTouched s c := by
  have h' := laneTaken_lane_ctx f l l s
  unfold laneTaken at h' ⊢
  rw [lane_congr (touchReservation_lanes _ _), h] at h'
  simp [touchReservation, h', restartReservation, accountsTouched, State.after]

/-! ### Requests on a lane with a basket -/

/-- A request that R3 carries out on a basket, of the right length, ends in what its body does with the lane's
context. -/
theorem laneBody_on {s : State} {l : LaneNo} {c : CtxNo} {a : Attachment} {r : Req} {len : Nat} (f : Frame)
    (h : OnBasket s l c a) (hl : r.payload.length = len) (body : CtxNo → State → State × Answer) :
    laneBody gateBasket len r l (onCtx l body) (laneTaken f l s) = body c (laneTaken f l s) := by
  obtain ⟨h1, h2, _⟩ := h
  rcases h1 with h1 | h1 <;> simp [laneBody, onCtx, gateBasket, h1, h2, hl]

theorem answerLane_reply (k : Byte) (r : Req) (l : LaneNo) (s : State) (o : OutcomeCode) (fields : List Byte) :
    answerLane k r l (s, .reply o fields) = placeReserved (laneReply k r l o fields s) s := rfl

theorem answerLane_later (k : Byte) (r : Req) (l : LaneNo) (s : State) : answerLane k r l (s, .later) = s := rfl

theorem answerBulk_reply (k : Byte) (r : Req) (s : State) (o : OutcomeCode) (fields : List Byte) :
    answerBulk k r (s, .reply o fields) = placeReserved (bulkReply k r o fields) s := rfl

theorem bumpRevision_attached {s : State} {c : CtxNo} {a : Attachment} (h : (s.ctx c).place = .attached a) :
    bumpRevision c s = (s.setCtx c (revised a (s.ctx c))).setLane a.lane (s.lane a.lane).overtaken := by
  have e : (s.setCtx c (s.ctx c).bumped).lane a.lane = s.lane a.lane := lane_congr (by simp) _
  unfold bumpRevision
  simp only [h, e]
  simp [Context.bumped, revised, h]

/-! ### What a request's step shows of its take -/

/-- A take is seen through any later state with its queue and its pending HOLD records. -/
theorem FrameTaken.congr {q : QueueId} {f : Frame} {s t u : State} (h : FrameTaken q f s t)
    (hi : u.inbound q = t.inbound q) (hd : u.link.deviceHolds = t.link.deviceHolds) : FrameTaken q f s u := by
  unfold FrameTaken at h ⊢
  rw [hi, hd]
  exact h

theorem laneTaken_requests (f : Frame) (l : LaneNo) (s : State) :
    (laneTaken f l s).mainQ.requests = s.mainQ.requests := by simp [laneTaken, reserveSlot, useSlot]
theorem laneTaken_served (f : Frame) (l : LaneNo) (s : State) :
    (laneTaken f l s).mainQ.served = s.mainQ.served.erase .laneTake := by simp [laneTaken, reserveSlot, useSlot]
theorem bulkTaken_requests (f : Frame) (s : State) :
    (bulkTaken f s).mainQ.requests = s.mainQ.requests := by simp [bulkTaken, reserveSlot, useSlot]
theorem bulkTaken_served (f : Frame) (s : State) :
    (bulkTaken f s).mainQ.served = s.mainQ.served.erase .bulkTake := by simp [bulkTaken, reserveSlot, useSlot]

/-- The reply of a lane request, once its state is known, for the take's own part. -/
theorem laneAnswered_of {s t : State} {k : Byte} {r : Req} {l : LaneNo} {o : OutcomeCode} {fields : List Byte}
    {rev : Counter} (hp : t.pool = (laneTaken (r.frame k) l s).pool)
    (hd : t.link.deviceHolds = (laneTaken (r.frame k) l s).link.deviceHolds)
    (hq : t.mainQ = (laneTaken (r.frame k) l s).mainQ) (hr : t.laneRevision l = rev) :
    LaneAnswered s (settleClaims (placeReserved (laneReply k r l o fields t) t)) k r o rev fields := by
  refine ⟨(laneTaken_taken (r.frame k) l s).congr (by simpa [State.inbound] using hp) (by simpa using hd), ?_, ?_⟩
  · simp [hq]
  · simp [hq, laneReply, hr]

/-- The reply of a bulk request, once its state is known, for the take's own part. -/
theorem bulkAnswered_of {s t : State} {k : Byte} {r : Req} {o : OutcomeCode} {fields : List Byte}
    (hp : t.bulk = (bulkTaken (r.frame k) s).bulk)
    (hd : t.link.deviceHolds = (bulkTaken (r.frame k) s).link.deviceHolds)
    (hq : t.mainQ = (bulkTaken (r.frame k) s).mainQ) :
    BulkAnswered s (settleClaims (placeReserved (bulkReply k r o fields) t)) k r o fields := by
  refine ⟨(bulkTaken_taken (r.frame k) s).congr (by simpa [State.inbound] using hp) (by simpa using hd), ?_, ?_⟩
  · simp [hq]
  · simp [hq, bulkReply]

/-- A frame of a lane request from the frame of its body: `u` is the state the body began with. -/
theorem laneFrame_of {s u t : State} {k : Byte} {r : Req} {l : LaneNo} {f : Frame}
    (h : t = { u with
      pool := t.pool, link := { u.link with deviceHolds := t.link.deviceHolds }
      mainQ := t.mainQ, draws := t.draws, lanes := t.lanes, ctxs := t.ctxs, accounts := t.accounts })
    (hq : t.mainQ.requests = u.mainQ.requests ∧ t.mainQ.served = u.mainQ.served ∧ t.draws = u.draws)
    (hu : u = laneTaken (r.frame k) l s) : LaneFrame s (settleClaims (placeReserved f t)) := by
  subst hu
  have hl := laneTaken_link (r.frame k) l s
  refine ⟨?_, ?_⟩
  · apply State.ext <;> (try rw [h]) <;> simp
    rw [hl]
    simp
  · have hs := settleClaims_served (placeReserved f t)
    simpa [placeReserved, hq.1, hq.2.1, hq.2.2, laneTaken_requests, laneTaken_served] using hs

/-! ### Refusals -/

theorem firstBad_none {checks : List (Bool × Nat)} : firstBad checks = none ↔ ∀ x ∈ checks, x.1 = true := by
  induction checks with
  | nil => simp [firstBad]
  | cons x xs ih =>
    obtain ⟨ok, off⟩ := x
    cases ok <;> simp [firstBad, ih]

/-- The first check that fails is the one BAD_FIELD names. -/
theorem firstFails_iff {checks : List (Bool × Nat)} {off : Nat} :
    FirstFails checks off ↔ firstBad checks = some off := by
  induction checks with
  | nil => simp [FirstFails, firstBad]
  | cons x xs ih =>
    obtain ⟨ok, o⟩ := x
    cases ok with
    | false =>
      simp only [firstBad, Bool.false_eq_true, if_false, Option.some.injEq]
      constructor
      · rintro ⟨n, h, hm⟩
        cases n with
        | zero => simpa using h
        | succ n => exact absurd (hm 0 (false, o) (by omega) rfl) (by simp)
      · rintro rfl
        exact ⟨0, rfl, fun m x h => absurd h (by omega)⟩
    | true =>
      simp only [firstBad, if_true]
      rw [← ih]
      constructor
      · rintro ⟨n, h, hm⟩
        cases n with
        | zero => simp at h
        | succ n => exact ⟨n, by simpa using h, fun m x h1 h2 => hm (m + 1) x (by omega) (by simpa using h2)⟩
      · rintro ⟨n, h, hm⟩
        refine ⟨n + 1, by simpa using h, fun m x h1 h2 => ?_⟩
        cases m with
        | zero => simp only [List.getElem?_cons_zero, Option.some.injEq] at h2; rw [← h2]
        | succ m => exact hm m x (by omega) (by simpa using h2)

/-- A lane request on a basket whose body refuses it: the reply alone. -/
theorem laneRequest_refused {s : State} {k : Byte} {r : Req} {l : LaneNo} {c : CtxNo} {a : Attachment} {len : Nat}
    (h : TakesLane s k r l) (hb : OnBasket s l c a) (hl : r.payload.length = len)
    (body : LaneNo → CtxNo → State → State × Answer) {o : OutcomeCode} {fields : List Byte}
    (he : body l c (laneTaken (r.frame k) l s) = (laneTaken (r.frame k) l s, .reply o fields)) :
    ∃ t, laneRequest k gateBasket len r (fun l => onCtx l (body l)) s = .next t ∧
      LaneAnswered s t k r o (s.ctx c).revision fields ∧ LaneFrame s t := by
  refine ⟨_, laneRequest_takes h _ _ _, ?_⟩
  rw [laneBody_on _ hb hl, he, answerLane_reply]
  refine ⟨laneAnswered_of rfl rfl rfl ?_, laneFrame_of rfl ⟨rfl, rfl, rfl⟩ rfl⟩
  simp [State.laneRevision, hb.2.1]

theorem bulkFrame_taken (s : State) (f g : Frame) : BulkFrame s (settleClaims (placeReserved g (bulkTaken f s))) := by
  have hl := bulkTaken_link f s
  refine ⟨?_, ?_⟩
  · apply State.ext <;> simp
    rw [hl]
  · have hs := settleClaims_served (placeReserved g (bulkTaken f s))
    simpa [placeReserved, bulkTaken_requests, bulkTaken_served] using hs

/-- A bulk request whose body refuses it: the reply alone. -/
theorem bulkRequest_refused {s : State} {k : Byte} {r : Req} (h0 : r.lane = 0) (h : TakesBulk s (r.frame k))
    (body : State → State × Answer) {o : OutcomeCode} {fields : List Byte}
    (he : body (bulkTaken (r.frame k) s) = (bulkTaken (r.frame k) s, .reply o fields)) :
    ∃ t, bulkRequest k r body s = .next t ∧ BulkAnswered s t k r o fields ∧ BulkFrame s t := by
  refine ⟨_, bulkRequest_takes h0 h body, ?_⟩
  rw [he, answerBulk_reply]
  exact ⟨bulkAnswered_of rfl rfl rfl, bulkFrame_taken _ _ _⟩

/-! ### Named lines (R24, R26) -/

theorem LinesLaw.numbers_nodup {x : Context} (h : LinesLaw x) : (x.lines.map (·.number)).Nodup := by
  rw [h.1]; exact List.nodup_range'

/-- Where the law of the line list holds, a line is found under its number. -/
theorem LinesLaw.lineNamed {x : Context} (h : LinesLaw x) {ln : Line} (hm : ln ∈ x.lines) :
    x.lineNamed ln.number = some ln := by
  have hd := h.numbers_nodup
  obtain ⟨h1, h2, h3, _⟩ := h
  have hn : ln.number ∈ x.lines.map (·.number) := List.mem_map_of_mem hm
  rw [h1, List.mem_range'_1] at hn
  unfold Context.lineNamed
  rw [if_pos ⟨by omega, by omega, by omega⟩]
  revert hm hd
  clear h1 h2 h3 hn
  induction x.lines with
  | nil => intro hm _; cases hm
  | cons y ys ih =>
    intro hm hd
    rw [List.map_cons, List.nodup_cons] at hd
    rcases List.mem_cons.1 hm with rfl | hm
    · simp
    · have : y.number ≠ ln.number := fun e => hd.1 (e ▸ List.mem_map_of_mem hm)
      rw [List.find?_cons_of_neg (by simpa using this)]
      exact ih hm hd.2

/-- A number that no line has names none. -/
theorem lineNamed_none {x : Context} {n : Nat} (h : ∀ y ∈ x.lines, y.number ≠ n) : x.lineNamed n = none := by
  unfold Context.lineNamed
  split
  · rw [List.find?_eq_none]; intro y hy; simpa using h y hy
  · rfl

/-- Putting a changed line in its place is changing the line of its number. -/
theorem LinesLaw.replaceLine {x : Context} (h : LinesLaw x) {ln : Line} (hm : ln ∈ x.lines) {f : Line → Line}
    (hf : ∀ y, (f y).number = y.number) : replaceLine (f ln) x.lines = editLine x ln.number f := by
  have hd := h.numbers_nodup
  clear h
  unfold Machine.replaceLine editLine
  apply List.map_congr_left
  intro y hy
  rw [hf]
  by_cases e : y.number = ln.number
  · have : y = ln := by
      revert hd hm hy
      induction x.lines with
      | nil => intro hm; cases hm
      | cons z zs ih =>
        intro hm hd hy
        rw [List.map_cons, List.nodup_cons] at hd
        rcases List.mem_cons.1 hm with h1 | h1 <;> rcases List.mem_cons.1 hy with h2 | h2
        · rw [h1, h2]
        · exact absurd (by rw [← h1, ← e]; exact List.mem_map_of_mem h2) hd.1
        · exact absurd (by rw [← h2, e]; exact List.mem_map_of_mem h1) hd.1
        · exact ih h1 hd.2 h2
    subst this; simp
  · simp [e]

end Sys2Proof.Machine
end

