-- ==== Sys2Proof/Tests/Slice0.lean ====
section
/-! SUPPORT. Small tests: the well-formedness checks refuse ill-formed commands, the check values and the quote of the
manual's worked example come out, and for every statement with hypotheses concrete states and operands meet them, for
each of its clauses. -/

namespace Sys2Proof.Tests

open Sys2Proof.Machine

/-! ### Helpers: small states -/

/-- A request with LANE `l`, TAG 7 and a payload. -/
def rq (l : Byte) (p : List Byte) : Req := { lane := l, tag := 7, payload := p }

/-- The state an outcome goes on with. -/
def after (o : Out) : State :=
  match o with
  | .next t => t
  | _ => State.reset

def offerA : Offer :=
  { id := 9, kind := .itemOff, target := .item 40112, gate := .none, stackable := false, rank := 1, firstDay := 3
    lastDay := 5, threshold := 0, value := 10, unitLimit := 0 }

def scheduleA : Schedule :=
  { earn0 := 1, earn1 := 2, earn2 := 3, earn3 := 5, redemptionRate := 200, minimumRedemption := 50, excluded := 1 }

def bankA : Bank :=
  { state := .current, generation := 5, pins := 1, offers := [offerA], closed := true, schedule := some scheduleA }

/-- Lane 1's attachment: day 3, bank 0 at generation 5. -/
def attA : Attachment := { lane := 0, tracking := .onDemand, bank := 0, generation := 5, day := 3 }

def lineA : Line :=
  { number := 1, item := 40112, dept := 12, noOffers := false, qty := 2, list := 650, floor := 520, voided := false
    override := none }

def lineB : Line := { lineA with number := 2, voided := true }

def lineC : Line := { lineA with number := 3, override := some { price := 600, supervisor := 1, reason := 4 } }

/-- The quote of the snapshot of a context with no account against bank 0 of `shop`. -/
def quoteA : Quote :=
  { incarnation := 1, revision := 3, generation := 5, gross := 2600, overrideReduction := 100, lineSavings := 20
    basketSaving := 0, couponValue := 0, redemption := 0, pointsUsed := 0, payable := 2480, pointsEarned := 0
    applied := [{ offer := 9, lines := 1, saving := 20 }], notListed := 0
    lines := [{ line := 1, net := 1280, exclusive := 9, stackable := 0 },
      { line := 3, net := 1200, exclusive := 0, stackable := 0 }]
    coupons := [] }

/-- A basket at incarnation 1, revision 3, with an ACTIVE, a VOIDED and an overridden line. -/
def basketA : Context :=
  { Context.initial with
    place := .attached attA, incarnation := 1, revision := 3, lines := [lineA, lineB, lineC], nextLine := 4 }

/-- A SERVING device on day 3 with lane 1 in a state and context 1 as given. -/
def shop (st : LaneState) (x : Context) : State :=
  { State.reset with
    mainQ := { State.reset.mainQ with frames := [] }
    lanes := State.reset.lanes.set 0 { Lane.initial with
      state := st, ctx := match x.place with | .attached _ => some 0 | _ => none }
    ctxs := State.reset.ctxs.set 0 x
    banks := State.reset.banks.set 0 bankA
    authority := [{ id := 1, level := 1, lineLimit := 3000, basketCap := 100 },
      { id := 3, level := 3, lineLimit := 10000, basketCap := 20000 }]
    device := { State.reset.device with day := 3, serving := true } }

/-- The state with one request frame in the lane pool. -/
def asks (k : Byte) (r : Req) (s : State) : State := { s with pool := { s.pool with frames := [r.frame k] } }

/-- The state with one frame in the bulk queue. -/
def tells (f : Frame) (s : State) : State := { s with bulk := { s.bulk with frames := [f] } }

/-- The state with one account entry, and context 1 with a reference to it. -/
def withAccount (e : AccountEntry) (s : State) : State :=
  { s with
    accounts := [e]
    ctxs := s.ctxs.set 0 { s.ctx 0 with account := some { id := e.id, tier := 2, trade := false } } }

/-! ### Well-formedness -/

theorem test_wf_accepts :
    Instr.wf (.openBasket (rq 8 [])) = true ∧ Instr.wf (.status (rq 0 (List.replicate 240 0))) = true ∧
      Instr.wf (.hold (rq 200 [7, 0, 1])) = true ∧ Instr.wf (.lengthFault 241) = true ∧
      Instr.wf (.unknownKindAnswer { kind := 0x02, lane := 9, tag := 0, payload := [] }) = true ∧
      Instr.wf .transmitStart = true := by decide +kernel

/-- LANE above 8. -/
theorem test_wf_refuses_lane : Instr.wf (.openBasket (rq 9 [])) = false := by decide +kernel

/-- A payload longer than 240 bytes. -/
theorem test_wf_refuses_payload : Instr.wf (.status (rq 0 (List.replicate 241 0))) = false := by decide +kernel

/-- A HOLD of a level above 7, and one of the wrong length. -/
theorem test_wf_refuses_hold :
    Instr.wf (.hold (rq 0 [8, 0, 1])) = false ∧ Instr.wf (.hold (rq 0 [7, 0])) = false := by decide +kernel

/-- A LEN that is no LENGTH fault. -/
theorem test_wf_refuses_length : Instr.wf (.lengthFault 240) = false := by decide +kernel

/-- A frame another block answers, and one no frame can hold. -/
theorem test_wf_refuses_unknown :
    Instr.wf (.unknownKindAnswer { kind := 0x02, lane := 8, tag := 0, payload := [] }) = false ∧
      Instr.wf (.unknownKindAnswer { kind := 0x77, lane := 0, tag := 0, payload := List.replicate 241 0 }) = false ∧
      Instr.wf (.unknownKindAnswer { kind := 0x40, lane := 9, tag := 0, payload := [7, 0, 1] }) = false := by
  decide +kernel

/-! ### Check values (R163, R190) and the table's bits -/

/-- The CRC-16 and the CRC-32 of the nine bytes 0x31 to 0x39. -/
theorem test_check_values :
    crc16 [0x31, 0x32, 0x33, 0x34, 0x35, 0x36, 0x37, 0x38, 0x39] = 0x29B1 ∧
      crc32 [0x31, 0x32, 0x33, 0x34, 0x35, 0x36, 0x37, 0x38, 0x39] = 0xCBF43926 := by decide +kernel

theorem test_no_row_has_bits : decodeTableWord 8 0 = none ∧ State.reset.withFetchWord 8 1 = State.reset := ⟨rfl, rfl⟩

/-! ### The worked example of chapter 4 -/

/-- An offer of the worked example. -/
def offer (id : Nat) (kind : OfferKind) (target : Target) (gate : Gate) (stackable : Bool) (rank threshold value : Nat)
    (unitLimit : Nat) : Offer :=
  { id := id, kind := kind, target := target, gate := gate, stackable := stackable, rank := rank, firstDay := 1
    lastDay := 300, threshold := threshold, value := value, unitLimit := unitLimit }

/-- Departments 12, 14 and 18. -/
def allThree : Target := .depts 0x45000

def exampleOffers : List Offer :=
  [offer 1101 .qtyBreak (.item 40112) .none false 10 50 590 0,
    offer 1102 .qtyBreak (.item 40112) .trade false 10 100 560 0,
    offer 1103 .qtyBreak (.item 40112) .none false 10 200 540 0,
    offer 2040 .itemOff (.item 40112) .none false 20 0 50 0,
    offer 2210 .deptPercent (.depts 0x40000) .none true 30 0 1500 0,
    offer 2211 .deptPercent allThree .coupon true 40 0 500 50,
    offer 3300 .spendOff allThree .none false 5 50000 2500 0,
    offer 3301 .spendOff (.depts 0x40000) .none false 6 10000 1000 0,
    offer 3302 .spendOff (.depts 0x1000) .trade true 8 60000 1200 0,
    offer 4400 .pointsBoost (.depts 0x40000) (.tierMin 1) false 50 0 3 0,
    offer 4401 .pointsBoost (.depts 0x40000) .none false 50 0 2 0]

def snapLine (number item dept qty list floor : Nat) : SnapLine :=
  { number := number, item := item, dept := dept, noOffers := false, qty := qty, list := list, floor := floor
    override := none }

def exampleSnapshot : Snapshot :=
  { ctx := 0, incarnation := 1, revision := 15
    lines := [snapLine 1 40112 12 80 650 520, { snapLine 3 55010 60 1 4500 4500 with noOffers := true },
      snapLine 4 40112 12 20 650 520, snapLine 5 40112 12 10 650 520, snapLine 6 30455 18 4 3999 3300,
      { snapLine 7 30460 18 2 899 600 with override := some 700 }]
    coupons := [{ kind := .offerKey 2211, active := true }, { kind := .storeValue 1000 25000, active := true },
      { kind := .storeValue 500 100000, active := true }]
    account := some { tier := 2, trade := true }
    reserved := 3001, bank := 0, generation := 42, day := 212 }

def exampleSchedule : Schedule :=
  { earn0 := 1, earn1 := 2, earn2 := 3, earn3 := 5, redemptionRate := 200, minimumRedemption := 500
    excluded := 0x1000000000000000 }

def exampleQuote : Quote := resolve exampleOffers exampleSchedule exampleSnapshot

/-- The identity of the example: 93,794 - 398 - 13,536 - 3,700 - 1,000 - 1,500 = 73,660. -/
theorem test_worked_quote :
    [exampleQuote.gross, exampleQuote.overrideReduction, exampleQuote.lineSavings, exampleQuote.basketSaving,
      exampleQuote.couponValue, exampleQuote.redemption, exampleQuote.pointsUsed, exampleQuote.payable] =
      [93794, 398, 13536, 3700, 1000, 1500, 3000, 73660] := by decide +kernel

/-! ### Witnesses: states and operands that meet the hypotheses of the statements -/

/-- An empty lane in a device with lane 1 alone in question. -/
def emptyLane (st : LaneState) : State := shop st Context.initial

theorem next_after {o : Out} (h : GoesOn o) : o = .next (after o) := by
  obtain ⟨t, h⟩ := h; subst h; rfl

/-- A state that satisfies every invariant, with a step that goes on. -/
theorem witness_invariants :
    ∃ s t : State, InboundBounded s ∧ NoticesDistinct s ∧ HoldsDistinct s ∧ StartedFirst s ∧ RequestsSound s ∧
      SlotsWithin s ∧ LinesSound s ∧
      BasketsSound s ∧ ClaimsSound s ∧ AuthoritySound s ∧ AccountsOrdered s ∧ BanksSound s ∧ PassOversBounded s ∧
      FaultDetailAgrees s ∧ step s = .next t := by
  refine ⟨{ State.reset with now := 1 }, _, by unfold InboundBounded; decide, by unfold NoticesDistinct; decide,
    by unfold HoldsDistinct; decide, fun _ _ => ⟨1, 0, rfl⟩, by unfold RequestsSound; decide, ?_,
      by unfold LinesSound LinesLaw; decide, ?_, by unfold ClaimsSound; decide,
    by unfold AuthoritySound; decide, by unfold AccountsOrdered; decide, ?_, by unfold PassOversBounded; decide,
      by unfold FaultDetailAgrees; decide, rfl⟩
  · exact ⟨by decide, by decide, by unfold IdleTimersPlaced; decide, by unfold StreamsPlaced; decide⟩
  · have hl : ∀ l : LaneNo, (State.lane { State.reset with now := 1 } l).ctx = none := by decide
    have hc : ∀ c : CtxNo, (State.ctx { State.reset with now := 1 } c).place = .free := by decide
    have hs : ∀ l : LaneNo, State.stream { State.reset with now := 1 } l = none := by decide
    refine ⟨?_, ?_, by decide, ?_, by unfold IdleTimersPlaced; decide, by decide, by decide, ?_, ?_⟩
    · intro l c h; rw [hl] at h; cases h
    · intro c a h; rw [hc] at h; cases h
    · intro l st h; rw [hs] at h; cases h
    · intro e h; cases h
    · intro c p h; rw [hc] at h; cases h
  · exact ⟨⟨rfl, rfl, rfl, rfl⟩, ⟨rfl, rfl, rfl, rfl⟩, rfl, by decide⟩

/-- Refused requests of either queue, with their replies (RefusedLaneRequestsChangeNothing,
RefusedBulkRequestsChangeNothing). -/
theorem witness_refused :
    (∃ i k r l s t f o, Instr.kind? i = some k ∧ isLaneKind k = true ∧ i.req? = some r ∧ TakesLane s k r l ∧
      exec i s = .next t ∧ t.mainQ.frames = s.mainQ.frames ++ [f] ∧ f.kind = 0x80 + k ∧ f.payload.head? = some o ∧
      o ≠ 0) ∧
    (∃ i k r s t f o, Instr.kind? i = some k ∧ isBulkKind k = true ∧ i.req? = some r ∧ r.lane = 0 ∧
      TakesBulk s (r.frame k) ∧ exec i s = .next t ∧ t.mainQ.frames = s.mainQ.frames ++ [f] ∧
      f.payload.head? = some o ∧ o ≠ 0) := by
  unfold TakesLane TakesBulk
  exact ⟨⟨.addLine (rq 1 []), 2, rq 1 [], 0, asks 2 (rq 1 []) (emptyLane .idle),
      after (exec (.addLine (rq 1 [])) (asks 2 (rq 1 []) (emptyLane .idle))),
      { kind := 0x82, lane := 1, tag := 7, payload := [3, 0, 0] }, 3, by decide, by decide, by decide,
      by decide +kernel, rfl, by decide +kernel, by decide, by decide, by decide⟩,
    ⟨.bankAbandon (rq 0 []), 0x25, rq 0 [], tells ((rq 0 []).frame 0x25) (emptyLane .idle),
      after (exec (.bankAbandon (rq 0 [])) (tells ((rq 0 []).frame 0x25) (emptyLane .idle))),
      { kind := 0xA5, lane := 0, tag := 7, payload := [3] }, 3, by decide, by decide, by decide, by decide,
      by decide +kernel, rfl, by decide +kernel, by decide, by decide⟩⟩

/-- RequestsAreCheckedForLaneStateAndLength, first part: a lane request with LANE 0, a bulk request with LANE 8, an
OFF lane. -/
theorem witness_wrongLane :
    (∃ s, TakesBulk s ((rq 0 []).frame 0x01)) ∧ (∃ s, TakesLane s 0x20 (rq 8 []) 7) ∧
      (∃ s, TakesLane s 0x13 (rq 1 []) 0 ∧ (s.lane 0).state = .off) := by
  unfold TakesLane TakesBulk
  exact ⟨⟨tells ((rq 0 []).frame 0x01) (emptyLane .idle), by decide +kernel⟩,
    ⟨asks 0x20 (rq 8 []) (emptyLane .idle), by decide +kernel⟩,
    ⟨asks 0x13 (rq 1 []) (emptyLane .off), by decide +kernel⟩⟩

/-- RequestsAreCheckedForLaneStateAndLength, the other parts, clause by clause. -/
theorem witness_statesAndLengths :
    (∃ s, TakesLane s 0x02 (rq 1 []) 0 ∧ (s.lane 0).state = .idle) ∧
    (∃ s, TakesLane s 0x12 (rq 1 []) 0 ∧ (s.lane 0).state = .idle ∧ (rq 1 []).payload.length ≠ laneLength 0x12) ∧
    (∃ s, TakesLane s 0x01 (rq 1 []) 0 ∧ (s.lane 0).state = .totalled) ∧
    (∃ s, TakesLane s 0x0F (rq 1 [0]) 0 ∧ (s.lane 0).state = .totalled ∧
      (rq 1 [0]).payload.length ≠ laneLength 0x0F) ∧
    (∃ s, TakesLane s 0x02 (rq 1 []) 0 ∧ (s.lane 0).state = .opened ∧
      (rq 1 []).payload.length ≠ laneLength 0x02) ∧
    (∃ s, TakesBulk s ((rq 0 []).frame 0x2C) ∧ (rq 0 []).payload.length ≠ bulkLength 0x2C) := by
  unfold TakesLane TakesBulk
  exact ⟨⟨asks 2 (rq 1 []) (emptyLane .idle), by decide +kernel⟩,
    ⟨asks 0x12 (rq 1 []) (emptyLane .idle), by decide +kernel⟩,
    ⟨asks 1 (rq 1 []) (shop .totalled basketA), by decide +kernel⟩,
    ⟨asks 0x0F (rq 1 [0]) (shop .totalled basketA), by decide +kernel⟩,
    ⟨asks 2 (rq 1 []) (shop .opened basketA), by decide +kernel⟩,
    ⟨tells ((rq 0 []).frame 0x2C) (emptyLane .idle), by decide +kernel⟩⟩

/-- CommandsNotMadeNowChangeNothing: a request no queue holds, a frame that is not the next one of the bulk queue, one
that a request's chapter answers, a device in reset, an empty command queue. -/
theorem witness_notNow :
    (∃ s, (∀ l, ¬ TakesLane s 0x01 (rq 1 []) l) ∧ ¬ TakesBulk s ((rq 1 []).frame 0x01)) ∧
      (∃ s, ¬ TakesBulk s ((rq 0 []).frame 0x77)) ∧
      (∃ s f, TakesBulk s f ∧ isKnownKind f.kind = true ∧ f.kind ≠ 0x40 ∧ f.lane.toNat = 8) ∧
      (∃ s : State, s.device.resetLow = true) ∧ ∃ s : State, s.pending = [] := by
  unfold TakesLane TakesBulk
  exact ⟨⟨emptyLane .idle, by decide +kernel⟩, ⟨emptyLane .idle, by decide +kernel⟩,
    ⟨tells ((rq 8 []).frame 0x30) (emptyLane .idle), (rq 8 []).frame 0x30, by decide +kernel⟩,
      ⟨after (exec .resetnLow State.reset), rfl⟩, ⟨State.reset, rfl⟩⟩

/-- A PARKED context under ticket 1, parked at 0, to be abandoned at 9. -/
def parkedA : Context := { Context.initial with place := .parked { ticket := 1, since := 0, expires := 9 } }

/-- OpenBasketAllocatesTheLowestFreeContext: an UNLOADED device, one without a FREE context, and the highest FREE
context with bank 1 CURRENT. -/
theorem witness_open :
    (∃ s, TakesLane s 0x01 (rq 1 []) 0 ∧ (s.lane 0).state = .idle ∧ s.device.serving = false) ∧
    (∃ s, TakesLane s 0x01 (rq 1 []) 0 ∧ (s.lane 0).state = .idle ∧ s.device.serving = true ∧
      ∀ c, (s.ctx c).place ≠ .free) ∧
    (∃ s, TakesLane s 0x01 (rq 1 []) 0 ∧ (s.lane 0).state = .idle ∧ s.device.serving = true ∧
      (s.ctx 11).place = .free ∧ (∀ d, d < 11 → (s.ctx d).place ≠ .free) ∧ s.currentBank = some 1) := by
  unfold TakesLane
  exact ⟨⟨asks 1 (rq 1 []) { emptyLane .idle with device := State.reset.device }, by decide +kernel⟩,
    ⟨asks 1 (rq 1 []) { emptyLane .idle with ctxs := Vector.replicate 12 parkedA }, by decide +kernel⟩,
    ⟨asks 1 (rq 1 []) { emptyLane .idle with
      banks := #v[Bank.initial, bankA]
      ctxs := (Vector.replicate 12 parkedA).set 11 Context.initial }, by decide +kernel⟩⟩

/-- SetTrackingSetsBothModes: a mode above 1, TRACKING and ON_DEMAND. -/
theorem witness_setTracking :
    (∃ s r, TakesLane s 0x0D r 0 ∧ OnBasket s 0 0 attA ∧ r.payload.length = 1 ∧ 1 < field r.payload 0 1) ∧
    (∃ s r, TakesLane s 0x0D r 0 ∧ OnBasket s 0 0 attA ∧ r.payload.length = 1 ∧ field r.payload 0 1 = 1) ∧
    (∃ s r, TakesLane s 0x0D r 0 ∧ OnBasket s 0 0 attA ∧ r.payload.length = 1 ∧ field r.payload 0 1 = 0) := by
  unfold TakesLane OnBasket
  exact ⟨⟨asks 0x0D (rq 1 [2]) (shop .opened basketA), rq 1 [2], by decide +kernel⟩,
    ⟨asks 0x0D (rq 1 [1]) (shop .opened basketA), rq 1 [1], by decide +kernel⟩,
    ⟨asks 0x0D (rq 1 [0]) (shop .totalled basketA), rq 1 [0], by decide +kernel⟩⟩

/-- TotalAnswersAtOnceOrWaits: with a quote and without one. -/
theorem witness_total :
    (∃ s, TakesLane s 0x0E (rq 1 []) 0 ∧ OnBasket s 0 0 attA ∧ (s.ctx 0).quote = some quoteA) ∧
    (∃ s, TakesLane s 0x0E (rq 1 []) 0 ∧ OnBasket s 0 0 attA ∧ (s.ctx 0).quote = none) := by
  unfold TakesLane OnBasket
  exact ⟨⟨asks 0x0E (rq 1 []) (shop .opened { basketA with quote := some quoteA }), by decide +kernel⟩,
    ⟨asks 0x0E (rq 1 []) (shop .opened basketA), by decide +kernel⟩⟩

/-- QueryBasketReportsAndChangesNothing: the last line number allowed, and the first one that is not. -/
theorem witness_query :
    (∃ s r, TakesLane s 0x13 r 0 ∧ OnBasket s 0 0 attA ∧ r.payload.length = 1 ∧ field r.payload 0 1 = 128) ∧
    (∃ s r, TakesLane s 0x13 r 0 ∧ OnBasket s 0 0 attA ∧ r.payload.length = 1 ∧ field r.payload 0 1 = 129) ∧
    (∃ s r, TakesLane s 0x13 r 0 ∧ OnBasket s 0 0 attA ∧ r.payload.length = 1 ∧ field r.payload 0 1 = 0) := by
  unfold TakesLane OnBasket
  exact ⟨⟨asks 0x13 (rq 1 [128]) (shop .opened basketA), rq 1 [128], by decide +kernel⟩,
    ⟨asks 0x13 (rq 1 [129]) (shop .opened basketA), rq 1 [129], by decide +kernel⟩,
    ⟨asks 0x13 (rq 1 [0]) (shop .opened basketA), rq 1 [0], by decide +kernel⟩⟩

/-- VoidBasketGivesEverythingBack, and the clauses of `ClaimsFreed` and `PinReleased`: a claim owned or none, the last
pin of a DRAINING bank or not. -/
theorem witness_void :
    (∃ s, TakesLane s 0x10 (rq 1 []) 0 ∧ OnBasket s 0 0 attA ∧ AccountsOrdered s ∧
      (∃ e ∈ s.claims, e.state = .claimed 0 (s.ctx 0).incarnation) ∧
      (s.bank 0).state = .draining ∧ (s.bank 0).pins ≤ 1) ∧
    (∃ s, TakesLane s 0x10 (rq 1 []) 0 ∧ OnBasket s 0 0 attA ∧ AccountsOrdered s ∧
      (∀ e ∈ s.claims, e.state ≠ .claimed 0 (s.ctx 0).incarnation) ∧
      ¬ ((s.bank 0).state = .draining ∧ (s.bank 0).pins ≤ 1)) := by
  unfold TakesLane OnBasket AccountsOrdered
  exact ⟨⟨asks 0x10 (rq 1 []) { shop .opened basketA with
      claims := [{ serial := 4, state := .claimed 0 1 }]
      banks := #v[{ bankA with state := .draining }, Bank.initial] }, by decide +kernel⟩,
    ⟨asks 0x10 (rq 1 []) (shop .opened basketA), by decide +kernel⟩⟩

/-- An ADD_LINE request: item 1, department 63, and the given quantity and list price, floor at the list price. -/
def addReq (qty list : Nat) : Req := rq 1 (enc 4 1 ++ [63] ++ enc 2 qty ++ enc 4 list ++ enc 4 list ++ [1])

/-- The checks of ADD_LINE, as AddLineAppendsALine lists them. -/
def addChecks (p : List Byte) : List (Bool × Nat) :=
  [ (decide (1 ≤ field p 0 4), 0), (decide (field p 4 1 ≤ 63), 4),
    (decide (1 ≤ field p 5 2 ∧ field p 5 2 ≤ 9999), 5), (decide (field p 7 4 ≤ 999999), 7),
    (decide (field p 11 4 ≤ field p 7 4), 11), (decide (field p 15 1 ≤ 1), 15) ]

/-- The hypotheses AddLineAppendsALine has for every clause but the first. -/
def AddAsked (s : State) (r : Req) : Prop :=
  TakesLane s 0x02 r 0 ∧ OnBasket s 0 0 attA ∧ r.payload.length = 16 ∧ ∀ x ∈ addChecks r.payload, x.1 = true

/-- AddLineAppendsALine: each field just out of range, alone or before others that are; then a gross that just reaches its
limit, a full list, a gross just above the limit. -/
theorem witness_addLine :
    (∀ x ∈ [(enc 4 0 ++ [64, 0, 0] ++ enc 4 1 ++ enc 4 2 ++ [2], 0),
      (enc 4 1 ++ [64, 0, 1] ++ enc 4 1 ++ enc 4 1 ++ [1], 4),
        (enc 4 1 ++ [63, 0, 0] ++ enc 4 1 ++ enc 4 1 ++ [1], 5),
          (enc 4 1 ++ [63] ++ enc 2 10000 ++ enc 4 1 ++ enc 4 1 ++ [1], 5),
        (enc 4 1 ++ [63, 0, 1] ++ enc 4 1000000 ++ enc 4 1 ++ [1], 7),
          (enc 4 1 ++ [63, 0, 1] ++ enc 4 1 ++ enc 4 2 ++ [1], 11),
        (enc 4 1 ++ [63, 0, 1] ++ enc 4 1 ++ enc 4 1 ++ [2], 15)],
      ∃ s, (TakesLane s 0x02 (rq 1 x.1) 0 ∧ OnBasket s 0 0 attA ∧ x.1.length = 16) ∧ FirstFails (addChecks x.1) x.2) ∧
    (∃ s r, AddAsked s r ∧ (s.ctx 0).lines.length < 128 ∧
      grossOf (s.ctx 0).lines + field r.payload 5 2 * field r.payload 7 4 = 99999999) ∧
    (∃ s r, AddAsked s r ∧ (s.ctx 0).lines.length = 128) ∧
    (∃ s r, AddAsked s r ∧ (s.ctx 0).lines.length < 128 ∧
      grossOf (s.ctx 0).lines + field r.payload 5 2 * field r.payload 7 4 = 100000000) := by
  unfold AddAsked TakesLane OnBasket
  simp only [firstFails_iff]
  refine ⟨fun x hx => ⟨asks 2 (rq 1 x.1) (shop .opened basketA), ?_⟩,
    ⟨asks 2 (addReq 9999 10001) (shop .opened { basketA with lines := [] }), addReq 9999 10001, by decide +kernel⟩,
    ⟨asks 2 (addReq 1 0) (shop .opened { basketA with lines := List.replicate 128 lineA }), addReq 1 0,
      by decide +kernel⟩,
    ⟨asks 2 (addReq 1 1) (shop .opened { basketA with lines := [{ lineA with qty := 9999, list := 10001 }] }),
      addReq 1 1, by decide +kernel⟩⟩
  revert x; decide +kernel

/-- The hypotheses SetQtyReplacesTheQuantity has for every clause. -/
def QtyAsked (s : State) (r : Req) (ln : Line) (qty : Nat) : Prop :=
  TakesLane s 0x03 r 0 ∧ OnBasket s 0 0 attA ∧ r.payload.length = 3 ∧ LinesLaw (s.ctx 0) ∧ ln ∈ (s.ctx 0).lines ∧
    ln.voided = false ∧ field r.payload 0 1 = ln.number ∧ qty = field r.payload 1 2

/-- The lines of context 1 with a new quantity on line `n`. -/
def requantified (s : State) (n qty : Nat) : List Line := editLine (s.ctx 0) n fun y => { y with qty := qty }

/-- SetQtyReplacesTheQuantity: the quantities 0 and 10,000, a gross just above its limit, an overridden line just past its
supervisor's cap and one whose quantity falls, and the greatest quantity on a line without an override. -/
theorem witness_setQty :
    (∃ s r, QtyAsked s r lineA 0) ∧ (∃ s r, QtyAsked s r lineA 10000) ∧
    (∃ s r ln, QtyAsked s r ln 9999 ∧ grossOf (requantified s 1 9999) = 100000000) ∧
    (∃ s r, QtyAsked s r lineC 3 ∧ grossOf (requantified s 3 3) ≤ 99999999 ∧
      lineC.override = some { price := 600, supervisor := 1, reason := 4 } ∧ lineC.qty < 3 ∧
      s.capOf 1 < cumulative 1 (requantified s 3 3)) ∧
    (∃ s r, QtyAsked s r lineC 1 ∧ grossOf (requantified s 3 1) ≤ 99999999 ∧ ¬ lineC.qty < 1) ∧
    (∃ s r, QtyAsked s r lineA 9999 ∧ grossOf (requantified s 1 9999) ≤ 99999999 ∧ lineA.override = none) := by
  unfold QtyAsked TakesLane OnBasket LinesLaw
  let t (p : List Byte) : State := asks 3 (rq 1 p) (shop .opened basketA)
  let dear : Line := { lineA with qty := 1, list := 10001 }
  exact ⟨⟨t [1, 0, 0], rq 1 [1, 0, 0], by decide +kernel⟩,
    ⟨t (1 :: enc 2 10000), rq 1 (1 :: enc 2 10000), by decide +kernel⟩,
    ⟨asks 3 (rq 1 (1 :: enc 2 9999)) (shop .opened { basketA with
        lines := [dear, { dear with number := 2, list := 1 }], nextLine := 3 }),
      rq 1 (1 :: enc 2 9999), dear, by decide +kernel⟩,
    ⟨t [3, 0, 3], rq 1 [3, 0, 3], by decide +kernel⟩, ⟨t [3, 0, 1], rq 1 [3, 0, 1], by decide +kernel⟩,
    ⟨t (1 :: enc 2 9999), rq 1 (1 :: enc 2 9999), by decide +kernel⟩⟩

/-- NamedLinesAreEdited: for the four requests a number one past the last line and a VOIDED line, and for VOID_LINE and
CLEAR_OVERRIDE an ACTIVE one. -/
theorem witness_namedLines :
    (∀ k ∈ [((0x03 : Byte), [(0 : Byte), 1]), (0x04, []), (0x05, [0, 0, 0, 1, 0, 0, 1, 4]), (0x06, [])],
      (∃ s r, TakesLane s k.1 r 0 ∧ OnBasket s 0 0 attA ∧ r.payload.length = laneLength k.1 ∧ LinesLaw (s.ctx 0) ∧
        ∀ y ∈ (s.ctx 0).lines, y.number ≠ field r.payload 0 1) ∧
      (∃ s r, TakesLane s k.1 r 0 ∧ OnBasket s 0 0 attA ∧ r.payload.length = laneLength k.1 ∧ LinesLaw (s.ctx 0) ∧
        lineB ∈ (s.ctx 0).lines ∧ lineB.number = field r.payload 0 1 ∧ lineB.voided = true)) ∧
    (∀ k ∈ [(0x04 : Byte), 0x06], ∃ s r, TakesLane s k r 0 ∧ OnBasket s 0 0 attA ∧ r.payload.length = 1 ∧
      LinesLaw (s.ctx 0) ∧ lineC ∈ (s.ctx 0).lines ∧ lineC.number = field r.payload 0 1 ∧ lineC.voided = false) := by
  unfold TakesLane OnBasket LinesLaw
  refine ⟨fun k hk => ⟨⟨asks k.1 (rq 1 (4 :: k.2)) (shop .opened basketA), rq 1 (4 :: k.2), ?_⟩,
      ⟨asks k.1 (rq 1 (2 :: k.2)) (shop .opened basketA), rq 1 (2 :: k.2), ?_⟩⟩,
    fun k hk => ⟨asks k (rq 1 [3]) (shop .opened basketA), rq 1 [3], ?_⟩⟩ <;> revert k <;> decide +kernel

/-- An OVERRIDE of line 1. -/
def overrideReq (price sup : Nat) : Req := rq 1 ([1] ++ enc 4 price ++ enc 3 sup ++ [4])

/-- The hypotheses OverrideIsCheckedAgainstTheSupervisor has for every clause, on line 1. -/
def OverrideAsked (s : State) (price sup : Nat) (e : Supervisor) : Prop :=
  TakesLane s 0x05 (overrideReq price sup) 0 ∧ OnBasket s 0 0 attA ∧ (overrideReq price sup).payload.length = 9 ∧
    LinesLaw (s.ctx 0) ∧ lineA ∈ (s.ctx 0).lines ∧ lineA.voided = false ∧
    field (overrideReq price sup).payload 0 1 = lineA.number ∧
    price = field (overrideReq price sup).payload 1 4 ∧ price ≤ 999999 ∧
    sup = field (overrideReq price sup).payload 5 3 ∧ 1 ≤ sup ∧ s.supervisor sup = some e

/-- The lines after an OVERRIDE of line 1. -/
def overriddenLines (price sup : Nat) : List Line :=
  editLine basketA 1 fun y => { y with override := some { price := price, supervisor := sup, reason := 4 } }

/-- Supervisor 3 with a level, a line limit and a basket cap. -/
def supA (level lineLimit basketCap : Nat) : Supervisor :=
  { id := 3, level := level, lineLimit := lineLimit, basketCap := basketCap }

/-- `shop` with one supervisor, asked for an OVERRIDE of line 1. -/
def supervised (price sup : Nat) (e : Supervisor) : State :=
  asks 5 (overrideReq price sup) { shop .opened basketA with authority := [e] }

/-- OverrideIsCheckedAgainstTheSupervisor, each clause where it meets the next: id 0, also with a price out of range, the
first price out of range, an id the table does not hold, the list price and one above it, the line
limit exactly reached and just passed, the floor and one below it at levels 3 and 2, the cap exactly reached and just
passed. -/
theorem witness_override :
    (∀ x ∈ [((1000000, 0), 5), ((999999, 0), 5), ((1000000, 3), 1)], ∃ s,
      (TakesLane s 0x05 (overrideReq x.1.1 x.1.2) 0 ∧ OnBasket s 0 0 attA ∧ LinesLaw (s.ctx 0) ∧
        x.1.1 = field (overrideReq x.1.1 x.1.2).payload 1 4 ∧ x.1.2 = field (overrideReq x.1.1 x.1.2).payload 5 3) ∧
      FirstFails [(decide (1 ≤ x.1.2), 5), (decide (x.1.1 ≤ 999999), 1)] x.2) ∧
    (∃ s, (TakesLane s 0x05 (overrideReq 0 2) 0 ∧ OnBasket s 0 0 attA ∧ LinesLaw (s.ctx 0)) ∧ s.supervisor 2 = none) ∧
    (∃ e s, OverrideAsked s 650 3 e ∧ 650 ≤ lineA.list ∧ 0 ≤ e.lineLimit ∧ lineA.floor ≤ 650 ∧
      cumulative 3 (overriddenLines 650 3) ≤ e.basketCap) ∧
    (∃ e s, OverrideAsked s 585 3 e ∧ 585 ≤ lineA.list ∧ (650 - 585) * 10000 / 650 = e.lineLimit ∧
      lineA.floor ≤ 585 ∧ cumulative 3 (overriddenLines 585 3) = e.basketCap) ∧
    (∃ e s, OverrideAsked s 651 3 e ∧ lineA.list < 651) ∧
    (∃ e s, OverrideAsked s 584 3 e ∧ 584 ≤ lineA.list ∧ e.lineLimit < (650 - 584) * 10000 / 650) ∧
    (∃ e s, OverrideAsked s 519 3 e ∧ (650 - 519) * 10000 / 650 ≤ e.lineLimit ∧ e.level ≠ 3 ∧ 519 < lineA.floor) ∧
    (∃ e s, OverrideAsked s 519 3 e ∧ (650 - 519) * 10000 / 650 ≤ e.lineLimit ∧ e.level = 3 ∧
      cumulative 3 (overriddenLines 519 3) = e.basketCap + 1) := by
  unfold OverrideAsked TakesLane OnBasket LinesLaw
  simp only [firstFails_iff]
  refine ⟨fun x hx => ⟨supervised x.1.1 x.1.2 (supA 1 0 0), by revert x; decide +kernel⟩,
    ⟨supervised 0 2 (supA 1 0 0), by decide +kernel⟩, ⟨supA 1 0 0, supervised 650 3 (supA 1 0 0), by decide +kernel⟩,
    ⟨supA 1 1000 130, supervised 585 3 (supA 1 1000 130), by decide +kernel⟩,
    ⟨supA 1 1000 130, supervised 651 3 (supA 1 1000 130), by decide +kernel⟩,
    ⟨supA 1 1000 130, supervised 584 3 (supA 1 1000 130), by decide +kernel⟩,
    ⟨supA 2 10000 130, supervised 519 3 (supA 2 10000 130), by decide +kernel⟩,
    ⟨supA 3 10000 261, supervised 519 3 (supA 3 10000 261), by decide +kernel⟩⟩

/-! ### Coupons and accounts -/

/-- A PRESENT_COUPON of an OFFER_KEY coupon for offer 9. -/
def keyReq (serial : Nat) : Req := rq 1 (enc 6 serial ++ [1] ++ enc 2 9 ++ enc 4 0 ++ enc 4 0)

/-- A PRESENT_COUPON of a STORE_VALUE coupon of the greatest value and minimum spend. -/
def valueReq : Req := rq 1 (enc 6 0 ++ [2] ++ enc 2 0 ++ enc 4 999999 ++ enc 4 99999999)

def keyCoupon (serial : Nat) : Coupon := { serial := serial, kind := .offerKey 9, active := true }

/-- A STORE_VALUE coupon of serial 0. -/
def valueCoupon (value least : Nat) : Coupon :=
  { serial := 0, kind := .storeValue value least, active := true }

/-- The hypotheses PresentCouponClaimsTheSerial has for every clause, for an OFFER_KEY coupon. -/
def KeyPresented (s : State) (serial : Nat) : Prop :=
  TakesLane s 0x07 (keyReq serial) 0 ∧ OnBasket s 0 0 attA ∧ (keyReq serial).payload.length = 17 ∧
    PresentedCoupon (keyReq serial).payload (keyCoupon serial)

theorem roomFor_key (serial : Nat) {ks : List Coupon} (h : ks.length < 12) : CouponRoom (keyCoupon serial) ks :=
  ⟨h, fun _ _ e => by cases e⟩

theorem couponFits_key {s : State} {serial : Nat} (h : (s.ctx 0).coupons = []) (h1 : (s.bank 0).offer 9 = some offerA) :
    CouponFits s attA (s.ctx 0) (keyCoupon serial) := by
  refine ⟨roomFor_key serial (by rw [h]; decide), fun _ y hy => ?_, fun id e => ?_⟩
  · rw [h] at hy; cases hy
  · cases e
    exact ⟨fun y hy => (by rw [h] at hy; cases hy), offerA, h1, by decide⟩

/-- The checks of PRESENT_COUPON's fields, as PresentCouponChecksTheCoupon lists them. -/
def couponFields (p : List Byte) : List (Bool × Nat) :=
  [ (decide (field p 6 1 = 1 ∨ field p 6 1 = 2), 6), (decide (field p 6 1 = 1 → 1 ≤ field p 7 2), 7),
    (decide (field p 6 1 = 2 → 1 ≤ field p 9 4 ∧ field p 9 4 ≤ 999999), 9),
    (decide (field p 6 1 = 2 → field p 13 4 ≤ 99999999), 13) ]

/-- PresentCouponChecksTheCoupon: each field just out of range, the value also together with the minimum spend; 12
coupons, 4 of STORE_VALUE; the position of a serial and of an offer key held; an offer the bank does not hold, one
whose window begins on the next day and one whose window ended on the day before. -/
theorem witness_couponChecks :
    (∀ x ∈ [(enc 6 0 ++ [0] ++ enc 2 9 ++ enc 8 0, 6), (enc 6 0 ++ [3] ++ enc 2 9 ++ enc 8 0, 6),
        (enc 6 0 ++ [1] ++ enc 2 0 ++ enc 8 0, 7), (enc 6 0 ++ [2] ++ enc 2 0 ++ enc 4 0 ++ enc 4 100000000, 9),
        (enc 6 0 ++ [2] ++ enc 2 0 ++ enc 4 1000000 ++ enc 4 0, 9),
          (enc 6 0 ++ [2] ++ enc 2 0 ++ enc 4 1 ++ enc 4 100000000, 13)],
      ∃ s, (TakesLane s 0x07 (rq 1 x.1) 0 ∧ OnBasket s 0 0 attA ∧ x.1.length = 17) ∧ FirstFails (couponFields x.1) x.2) ∧
    (∃ s, KeyPresented s 7 ∧ ¬ CouponRoom (keyCoupon 7) (s.ctx 0).coupons) ∧
    (∃ s, (TakesLane s 0x07 valueReq 0 ∧ OnBasket s 0 0 attA ∧
      PresentedCoupon valueReq.payload (valueCoupon 999999 99999999)) ∧
      (s.ctx 0).coupons.length < 12 ∧ ¬ CouponRoom (valueCoupon 999999 99999999) (s.ctx 0).coupons) ∧
    (∃ s y, KeyPresented s 7 ∧ CouponRoom (keyCoupon 7) (s.ctx 0).coupons ∧ (s.ctx 0).coupons[1]? = some y ∧
      y.serial = 7 ∧
      ∀ z ∈ (s.ctx 0).coupons.take 1, z.serial ≠ 7) ∧
    (∃ s y, KeyPresented s 7 ∧ CouponRoom (keyCoupon 7) (s.ctx 0).coupons ∧ (∀ z ∈ (s.ctx 0).coupons, z.serial ≠ 7) ∧
      (s.ctx 0).coupons[1]? = some y ∧ y.kind = .offerKey 9 ∧ ∀ z ∈ (s.ctx 0).coupons.take 1, z.kind ≠ .offerKey 9) ∧
    (∃ s, KeyPresented s 7 ∧ CouponRoom (keyCoupon 7) (s.ctx 0).coupons ∧ (s.ctx 0).coupons = [] ∧
      (s.bank 0).offer 9 = none) ∧
    (∀ w ∈ [((4 : Nat), (9 : Nat)), (1, 2)], ∃ s o, KeyPresented s 7 ∧ CouponRoom (keyCoupon 7) (s.ctx 0).coupons ∧
      (s.ctx 0).coupons = [] ∧ (s.bank attA.bank).offer 9 = some o ∧
        (attA.day + 1 = o.firstDay ∨ o.lastDay + 1 = attA.day)) := by
  unfold KeyPresented TakesLane OnBasket PresentedCoupon
  simp only [firstFails_iff]
  let t (ks : List Coupon) : State := asks 7 (keyReq 7) (shop .opened { basketA with coupons := ks })
  let other : Coupon := valueCoupon 1 1
  refine ⟨fun x hx => ⟨asks 7 (rq 1 x.1) (shop .opened basketA), by revert x; decide +kernel⟩,
    ⟨t (List.replicate 12 other), by decide +kernel, fun h => absurd h.1 (by decide +kernel)⟩,
    ⟨asks 7 valueReq (shop .opened { basketA with coupons := List.replicate 4 other }), by decide +kernel,
      by decide +kernel,
      fun h => absurd (h.2 _ _ rfl) (by decide +kernel)⟩,
    ⟨t [other, keyCoupon 7], keyCoupon 7, by decide +kernel, roomFor_key 7 (by decide +kernel), by decide +kernel⟩,
    ⟨t [other, keyCoupon 3], keyCoupon 3, by decide +kernel, roomFor_key 7 (by decide +kernel), by decide +kernel⟩,
    ⟨{ t [] with banks := #v[{ bankA with offers := [] }, .initial] }, by decide +kernel,
      roomFor_key 7 (by decide +kernel),
      by decide +kernel⟩, fun w hw => ?_⟩
  refine ⟨{ t [] with banks := #v[{ bankA with offers := [{ offerA with firstDay := w.1, lastDay := w.2 }] }, .initial] },
    { offerA with firstDay := w.1, lastDay := w.2 }, ?_, roomFor_key 7 (show 0 < 12 by decide),
      ?_⟩ <;> revert w <;> decide +kernel

/-- A claim table of 96 entries. -/
def fullTable (first : ClaimState) : List ClaimEntry :=
  { serial := 1, state := first } ::
    (List.range 95).map fun i => { serial := 10 + i, state := .claimed 5 1 }

/-- PresentCouponClaimsTheSerial: a serial of 0 for a STORE_VALUE coupon, a serial for a table with one place left, the
eviction, the table full of CLAIMED entries, a serial CLAIMED and one SPENT. -/
theorem witness_present :
    (∃ s, (TakesLane s 0x07 valueReq 0 ∧ OnBasket s 0 0 attA ∧ valueReq.payload.length = 17 ∧
      PresentedCoupon valueReq.payload (valueCoupon 999999 99999999)) ∧ (s.ctx 0).coupons.length = 11 ∧
      storeValues (s.ctx 0).coupons = 3 ∧ CouponFits s attA (s.ctx 0) (valueCoupon 999999 99999999)) ∧
    (∃ s, KeyPresented s 7 ∧ CouponFits s attA (s.ctx 0) (keyCoupon 7) ∧ s.claim 7 = none ∧ s.claims.length = 95) ∧
    (∃ s, KeyPresented s 7 ∧ CouponFits s attA (s.ctx 0) (keyCoupon 7) ∧ s.claim 7 = none ∧ s.claims.length = 96 ∧
      s.oldestSpent = some { serial := 1, state := .spent 2 }) ∧
    (∃ s, KeyPresented s 7 ∧ CouponFits s attA (s.ctx 0) (keyCoupon 7) ∧ s.claim 7 = none ∧ s.claims.length = 96 ∧
      s.oldestSpent = none) ∧
    (∃ s, KeyPresented s 10 ∧ CouponFits s attA (s.ctx 0) (keyCoupon 10) ∧
      s.claim 10 = some { serial := 10, state := .claimed 5 1 }) ∧
    (∃ s, KeyPresented s 1 ∧ CouponFits s attA (s.ctx 0) (keyCoupon 1) ∧
      s.claim 1 = some { serial := 1, state := .spent 2 }) := by
  unfold KeyPresented TakesLane OnBasket PresentedCoupon
  let t (serial : Nat) (cs : List ClaimEntry) : State :=
    asks 7 (keyReq serial) { shop .opened basketA with claims := cs }
  have fits : ∀ serial cs, CouponFits (t serial cs) attA ((t serial cs).ctx 0) (keyCoupon serial) :=
    fun serial cs => couponFits_key rfl rfl
  exact ⟨⟨asks 7 valueReq (shop .opened { basketA with
      coupons := List.replicate 8 (keyCoupon 0) ++
        List.replicate 3 (valueCoupon 1 1) }), by decide +kernel, by decide +kernel, by decide +kernel,
      ⟨by decide +kernel, fun _ _ _ => by decide +kernel⟩, fun h => absurd rfl h, fun _ e => by cases e⟩,
    ⟨t 7 (fullTable (.spent 2)).tail, by decide +kernel, fits _ _, by decide +kernel⟩,
    ⟨t 7 (fullTable (.spent 2)), by decide +kernel, fits _ _, by decide +kernel⟩,
    ⟨t 7 (fullTable (.claimed 5 1)), by decide +kernel, fits _ _, by decide +kernel⟩,
    ⟨t 10 (fullTable (.spent 2)), by decide +kernel, fits _ _, by decide +kernel⟩,
    ⟨t 1 (fullTable (.spent 2)), by decide +kernel, fits _ _, by decide +kernel⟩⟩

/-- WithdrawCouponReleasesTheSerial: the last coupon, with its claim in the table and without, a position one past the
list, and position 0. -/
theorem witness_withdraw :
    (∃ s r, TakesLane s 0x08 r 0 ∧ OnBasket s 0 0 attA ∧ r.payload.length = 1 ∧ 2 = field r.payload 0 1 ∧
      (s.ctx 0).coupons[1]? = some (keyCoupon 7) ∧ (s.ctx 0).coupons.length = 2 ∧
      ∃ e ∈ s.claims, e.serial = 7 ∧ e.state = .claimed 0 (s.ctx 0).incarnation) ∧
    (∃ s r, TakesLane s 0x08 r 0 ∧ OnBasket s 0 0 attA ∧ r.payload.length = 1 ∧ 1 = field r.payload 0 1 ∧
      (s.ctx 0).coupons[0]? = some (keyCoupon 0) ∧ s.claims = []) ∧
    (∃ s r, TakesLane s 0x08 r 0 ∧ OnBasket s 0 0 attA ∧ r.payload.length = 1 ∧ 1 = field r.payload 0 1 ∧
      (s.ctx 0).coupons.length < 1) ∧
    (∃ s r, TakesLane s 0x08 r 0 ∧ OnBasket s 0 0 attA ∧ r.payload.length = 1 ∧ 0 = field r.payload 0 1) := by
  unfold TakesLane OnBasket
  exact ⟨⟨asks 8 (rq 1 [2]) { shop .opened { basketA with coupons := [keyCoupon 0, keyCoupon 7] } with
      claims := [{ serial := 7, state := .claimed 0 1 }] }, rq 1 [2], by decide +kernel⟩,
    ⟨asks 8 (rq 1 [1]) (shop .opened { basketA with coupons := [keyCoupon 0, keyCoupon 7] }), rq 1 [1],
      by decide +kernel⟩,
    ⟨asks 8 (rq 1 [1]) (shop .opened basketA), rq 1 [1], by decide +kernel⟩,
    ⟨asks 8 (rq 1 [0]) (shop .opened basketA), rq 1 [0], by decide +kernel⟩⟩

/-- Account 7 with 1,000 points: 300 reserved by context 2, then 200 by context 1. -/
def accountA : AccountEntry :=
  { id := 7, balance := 1000, refs := 2
    reservations := [{ ctx := 1, points := 300, expires := 50 }, { ctx := 0, points := 200, expires := 60 }] }

/-- An ATTACH_ACCOUNT of the greatest tier. -/
def attachReq (id balance : Nat) : Req := rq 1 (enc 5 id ++ enc 4 balance ++ [3, 1])

/-- The checks of ATTACH_ACCOUNT, as AttachAccountMovesTheReference lists them. -/
def attachChecks (p : List Byte) : List (Bool × Nat) :=
  [ (decide (1 ≤ field p 0 5 ∧ field p 0 5 ≤ 1099511627775), 0), (decide (field p 5 4 ≤ 99999999), 5),
    (decide (field p 9 1 ≤ 3), 9), (decide (field p 10 1 ≤ 1), 10) ]

/-- AttachAccountMovesTheReference: each field just out of range; an account without an entry, at the greatest id and
balance, and one with an entry whose reservations the new balance cuts. -/
theorem witness_attach :
    (∀ x ∈ [(enc 5 0 ++ enc 4 100000000 ++ [4, 2], 0), (enc 5 1 ++ enc 4 100000000 ++ [4, 2], 5),
      (enc 5 1 ++ enc 4 0 ++ [4, 2], 9),
        (enc 5 1 ++ enc 4 0 ++ [3, 2], 10)], ∃ s, (TakesLane s 0x09 (rq 1 x.1) 0 ∧ OnBasket s 0 0 attA ∧
          AccountsOrdered s ∧
      x.1.length = 11) ∧ FirstFails (attachChecks x.1) x.2) ∧
    (∃ s, TakesLane s 0x09 (attachReq 1099511627775 99999999) 0 ∧ OnBasket s 0 0 attA ∧ AccountsOrdered s ∧
      (attachReq 1099511627775 99999999).payload.length = 11 ∧
      field (attachReq 1099511627775 99999999).payload 0 5 = 1099511627775 ∧
      field (attachReq 1099511627775 99999999).payload 5 4 = 99999999 ∧
      field (attachReq 1099511627775 99999999).payload 9 1 = 3 ∧
      field (attachReq 1099511627775 99999999).payload 10 1 = 1 ∧ s.account 1099511627775 = none) ∧
    (∃ s, TakesLane s 0x09 (attachReq 7 299) 0 ∧ OnBasket s 0 0 attA ∧ AccountsOrdered s ∧
      (attachReq 7 299).payload.length = 11 ∧ field (attachReq 7 299).payload 0 5 = 7 ∧
      field (attachReq 7 299).payload 5 4 = 299 ∧ field (attachReq 7 299).payload 9 1 ≤ 3 ∧
      field (attachReq 7 299).payload 10 1 ≤ 1 ∧ s.account 7 = some accountA ∧
      cutContexts (withoutHold 0 accountA).reservations 299 = [1]) := by
  unfold TakesLane OnBasket AccountsOrdered
  simp only [firstFails_iff]
  refine ⟨fun x hx => ⟨asks 9 (rq 1 x.1) (shop .opened basketA), by revert x; decide +kernel⟩,
    ⟨asks 9 (attachReq 1099511627775 99999999) (withAccount accountA (shop .opened basketA)),
      by decide +kernel⟩,
    ⟨asks 9 (attachReq 7 299) (withAccount accountA (shop .opened basketA)), by decide +kernel⟩⟩

/-- DetachAndCancelReleaseTheReservation: with an account and without one, for both requests. -/
theorem witness_detach :
    ∀ k : Byte, k = 0x0A ∨ k = 0x0C →
      (∃ s, TakesLane s k (rq 1 []) 0 ∧ OnBasket s 0 0 attA ∧ AccountsOrdered s ∧
        (s.ctx 0).account = some { id := 7, tier := 2, trade := false }) ∧
      (∃ s, TakesLane s k (rq 1 []) 0 ∧ OnBasket s 0 0 attA ∧ AccountsOrdered s ∧ (s.ctx 0).account = none) := by
  unfold TakesLane OnBasket AccountsOrdered
  intro k hk
  rcases hk with rfl | rfl
  · exact ⟨⟨asks 0x0A (rq 1 []) (withAccount accountA (shop .opened basketA)), by decide +kernel⟩,
      ⟨asks 0x0A (rq 1 []) (shop .opened basketA), by decide +kernel⟩⟩
  · exact ⟨⟨asks 0x0C (rq 1 []) (withAccount accountA (shop .totalled basketA)), by decide +kernel⟩,
      ⟨asks 0x0C (rq 1 []) (shop .opened basketA), by decide +kernel⟩⟩

/-- The hypotheses RedeemReservesPoints has for every clause. -/
def RedeemAsked (s : State) (points : Nat) : Prop :=
  TakesLane s 0x0B (rq 1 (enc 4 points)) 0 ∧ OnBasket s 0 0 attA ∧ (rq 1 (enc 4 points)).payload.length = 4 ∧
    points = field (rq 1 (enc 4 points)).payload 0 4 ∧
    (s.bank 0).schedule = some scheduleA

/-- RedeemReservesPoints: the points just out of range, the minimum, all that is available, one point below the
minimum, one above what is available, no account. -/
theorem witness_redeem :
    (∀ n ∈ [0, 100000000], ∃ s, RedeemAsked s n) ∧
    (∃ s, RedeemAsked s 50 ∧ (s.ctx 0).account = some { id := 7, tier := 2, trade := false } ∧
      s.account 7 = some accountA ∧ scheduleA.minimumRedemption ≤ 50) ∧
    (∃ s, RedeemAsked s 700 ∧ (s.ctx 0).account = some { id := 7, tier := 2, trade := false } ∧
      s.account 7 = some accountA ∧ scheduleA.minimumRedemption ≤ 700 ∧
      700 + ((withoutHold 0 accountA).reservations.map (·.points)).sum = accountA.balance) ∧
    (∃ s, RedeemAsked s 49 ∧ (s.ctx 0).account = some { id := 7, tier := 2, trade := false } ∧
      s.account 7 = some accountA ∧ 49 < scheduleA.minimumRedemption) ∧
    (∃ s, RedeemAsked s 701 ∧ (s.ctx 0).account = some { id := 7, tier := 2, trade := false } ∧
      s.account 7 = some accountA ∧ scheduleA.minimumRedemption ≤ 701 ∧
      accountA.balance < 701 + ((withoutHold 0 accountA).reservations.map (·.points)).sum) ∧
    (∃ s, RedeemAsked s 99999999 ∧ (s.ctx 0).account = none) := by
  unfold RedeemAsked TakesLane OnBasket
  let t (points : Nat) : State := asks 0x0B (rq 1 (enc 4 points)) (withAccount accountA (shop .opened basketA))
  refine ⟨fun n hn => ⟨t n, by revert n; decide +kernel⟩, ⟨t 50, by decide +kernel⟩, ⟨t 700, by decide +kernel⟩,
    ⟨t 49, by decide +kernel⟩,
    ⟨t 701, by decide +kernel⟩, ⟨asks 0x0B (rq 1 (enc 4 99999999)) (shop .opened basketA), by decide +kernel⟩⟩

/-- An ACCOUNT_BALANCE request. -/
def balanceReq (id balance : Nat) : Req := rq 0 (enc 5 id ++ enc 4 balance)

/-- AccountBalanceAppliesTheCutRule: each field just out of range, a balance that cuts one reservation whole and one
in part, and an unknown account. -/
theorem witness_balance :
    (∀ x ∈ [((0, 100000000), 0), ((7, 100000000), 5)], ∃ s, (TakesBulk s ((balanceReq x.1.1 x.1.2).frame 0x29) ∧
      AccountsOrdered s ∧ (balanceReq x.1.1 x.1.2).payload.length = 9 ∧
        field (balanceReq x.1.1 x.1.2).payload 0 5 = x.1.1 ∧
      field (balanceReq x.1.1 x.1.2).payload 5 4 = x.1.2) ∧
      FirstFails [(decide (1 ≤ x.1.1 ∧ x.1.1 ≤ 1099511627775), 0), (decide (x.1.2 ≤ 99999999), 5)] x.2) ∧
    (∃ s, TakesBulk s ((balanceReq 7 100).frame 0x29) ∧ AccountsOrdered s ∧ (balanceReq 7 100).payload.length = 9 ∧
      field (balanceReq 7 100).payload 0 5 = 7 ∧ field (balanceReq 7 100).payload 5 4 = 100 ∧
      s.account 7 = some accountA ∧ cutContexts accountA.reservations 100 = [0, 1]) ∧
    (∃ s, TakesBulk s ((balanceReq 1099511627775 99999999).frame 0x29) ∧ AccountsOrdered s ∧
      (balanceReq 1099511627775 99999999).payload.length = 9 ∧
      field (balanceReq 1099511627775 99999999).payload 0 5 = 1099511627775 ∧
      field (balanceReq 1099511627775 99999999).payload 5 4 = 99999999 ∧ s.account 1099511627775 = none) := by
  unfold TakesBulk AccountsOrdered
  simp only [firstFails_iff]
  refine ⟨fun x hx => ⟨tells ((balanceReq x.1.1 x.1.2).frame 0x29) (shop .opened basketA), by revert x; decide +kernel⟩,
    ⟨tells ((balanceReq 7 100).frame 0x29) (withAccount accountA (shop .opened basketA)), by decide +kernel⟩,
    ⟨tells ((balanceReq 1099511627775 99999999).frame 0x29) (withAccount accountA (shop .opened basketA)),
      by decide +kernel⟩⟩

/-- CutRuleTakesTheYoungestFirst: a balance equal to the sum, and one point below it. -/
theorem witness_cut :
    (accountA.reservations.map (·.points)).sum ≤ 500 ∧
      499 < (accountA.reservations.map (·.points)).sum ∧ ∀ d ∈ accountA.reservations, 1 ≤ d.points := by
  decide

/-! ### Settlement and parking -/

/-- FinalizeSettlesTheQuote: with an account and a claim, without either, and on an OPEN lane. -/
theorem witness_finalize :
    (∃ s, TakesLane s 0x0F (rq 1 []) 0 ∧ OnBasket s 0 0 attA ∧ AccountsOrdered s ∧ (s.ctx 0).quote = some quoteA ∧
      (s.lane 0).state = .totalled ∧ (s.ctx 0).account = some { id := 7, tier := 2, trade := false } ∧
      s.account 7 ≠ none ∧ ∃ e ∈ s.claims, e.state = .claimed 0 (s.ctx 0).incarnation) ∧
    (∃ s, TakesLane s 0x0F (rq 1 []) 0 ∧ OnBasket s 0 0 attA ∧ AccountsOrdered s ∧ (s.ctx 0).quote = some quoteA ∧
      (s.lane 0).state = .totalled ∧ (s.ctx 0).account = none ∧
      ∀ e ∈ s.claims, e.state ≠ .claimed 0 (s.ctx 0).incarnation) ∧
    (∃ s, TakesLane s 0x0F (rq 1 []) 0 ∧ OnBasket s 0 0 attA ∧ (s.lane 0).state = .opened) := by
  unfold TakesLane OnBasket AccountsOrdered
  exact ⟨⟨asks 0x0F (rq 1 []) { withAccount accountA (shop .totalled { basketA with quote := some quoteA }) with
      claims := [{ serial := 7, state := .claimed 0 1 }] }, by decide +kernel⟩,
    ⟨asks 0x0F (rq 1 []) (shop .totalled { basketA with quote := some quoteA }), by decide +kernel⟩,
    ⟨asks 0x0F (rq 1 []) (shop .opened basketA), by decide +kernel⟩⟩

/-- The law of baskets and lanes holds with one basket on lane 1. -/
theorem basketsSound_shop {s : State} (hl : s.lanes = (shop .opened basketA).lanes)
    (hc : s.ctxs = (shop .opened basketA).ctxs) (hp : s.parks = State.reset.parks)
    (hs : s.streams = State.reset.streams) : BasketsSound s := by
  have l0 : (s.lane 0).ctx = some 0 := by simp only [State.lane, hl]; decide
  have ln : ∀ l : LaneNo, l ≠ 0 → (s.lane l).ctx = none := by simp only [State.lane, hl]; decide
  have c0 : (s.ctx 0).place = .attached attA := by simp only [State.ctx, hc]; decide
  have cn : ∀ c : CtxNo, c ≠ 0 → (s.ctx c).place = .free := by simp only [State.ctx, hc]; decide
  have st : ∀ l : LaneNo, s.stream l = none := by simp only [State.stream, hs]; decide
  have pk : s.parks.list = [] := by rw [hp]; rfl
  refine ⟨?_, ?_, ?_, ?_, ?_, by rw [pk]; decide, by rw [pk]; decide, ?_, ?_⟩
  · intro l c h
    by_cases h0 : l = 0
    · subst h0; rw [l0] at h; cases h; exact ⟨attA, c0, rfl⟩
    · rw [ln l h0] at h; cases h
  · intro c a h
    by_cases h0 : c = 0
    · subst h0; rw [c0] at h; cases h; exact l0
    · rw [cn c h0] at h; cases h
  · simp only [State.lane, hl]; decide
  · intro l x h; rw [st] at h; cases h
  · unfold IdleTimersPlaced; simp only [State.lane, hl]; decide
  · intro e h; rw [pk] at h; cases h
  · intro c p h
    by_cases h0 : c = 0
    · subst h0; rw [c0] at h; cases h
    · rw [cn c h0] at h; cases h

/-- ParkKeepsTheBasketUnderATicket. -/
theorem witness_park :
    ∃ s, TakesLane s 0x11 (rq 1 []) 0 ∧ OnBasket s 0 0 attA ∧ BasketsSound s := by
  refine ⟨asks 0x11 (rq 1 []) (shop .opened basketA), ?_, ?_, basketsSound_shop rfl rfl rfl rfl⟩
  · unfold TakesLane; decide +kernel
  · unfold OnBasket; decide +kernel

/-- RecallAttachesTheParkedBasket: the parked basket under the greatest ticket, an UNLOADED device, ticket 0, and a ticket
the park list does not hold. -/
theorem witness_recall :
    (∃ s, TakesLane s 0x12 (rq 1 [255]) 0 ∧ (s.lane 0).state = .idle ∧ 255 = field (rq 1 [255]).payload 0 1 ∧
      s.device.serving = true ∧
      s.parks.list.find? (fun e => e.ticket = 255) = some { ticket := 255, ctx := 0 } ∧
      (s.ctx 0).place = .parked { ticket := 255, since := 0, expires := 9 } ∧ s.currentBank = some 0) ∧
    (∃ s, TakesLane s 0x12 (rq 1 [0]) 0 ∧ (s.lane 0).state = .idle ∧ s.device.serving = false) ∧
    (∃ s, TakesLane s 0x12 (rq 1 [0]) 0 ∧ (s.lane 0).state = .idle ∧ s.device.serving = true ∧
      0 = field (rq 1 [0]).payload 0 1) ∧
    (∃ s, TakesLane s 0x12 (rq 1 [1]) 0 ∧ (s.lane 0).state = .idle ∧ s.device.serving = true ∧
      1 = field (rq 1 [1]).payload 0 1 ∧ ∀ e ∈ s.parks.list, e.ticket ≠ 1) := by
  unfold TakesLane
  let t (ticket : Byte) : State := asks 0x12 (rq 1 [ticket])
    { shop .idle { basketA with place := .parked { ticket := 255, since := 0, expires := 9 } } with
      parks := { list := [{ ticket := 255, ctx := 0 }], lastTicket := 255 } }
  exact ⟨⟨t 255, by decide +kernel⟩, ⟨{ t 0 with device := State.reset.device }, by decide +kernel⟩,
    ⟨t 0, by decide +kernel⟩, ⟨t 1, by decide +kernel⟩⟩

/-! ### Banks -/

/-- `shop` with the other bank as given. -/
def withBank (x : Bank) (s : State) : State := { s with banks := #v[bankA, x] }

/-- `shop` asked for a bulk request. -/
def asked (k : Byte) (p : List Byte) (s : State) : State := tells ((rq 0 p).frame k) s

/-- The state of bank 1 while an update is made. -/
def stagingA : Bank := { Bank.initial with state := .staging, generation := 6 }

/-- BankBeginAndAbandonSetTheStagingBank: a FREE bank, the staging bank, BANK_BUSY, generation 0, and BANK_ABANDON
with and without a staging bank. -/
theorem witness_bankBegin :
    (∃ s, ∃ r : Req, TakesBulk s (r.frame 0x20) ∧ r.lane = 0 ∧ r.payload.length = 2 ∧ field r.payload 0 2 = 65535 ∧
      s.stagingBank = none ∧ (s.bank 1).state = .free ∧ ∀ d, d < 1 → (s.bank d).state ≠ .free) ∧
    (∃ s, ∃ r : Req, TakesBulk s (r.frame 0x20) ∧ r.lane = 0 ∧ r.payload.length = 2 ∧ field r.payload 0 2 = 1 ∧
      s.stagingBank = some 1) ∧
    (∃ s, ∃ r : Req, TakesBulk s (r.frame 0x20) ∧ r.lane = 0 ∧ r.payload.length = 2 ∧ 1 ≤ field r.payload 0 2 ∧
      s.stagingBank = none ∧ (∀ d, (s.bank d).state ≠ .free) ∧ (s.bank 1).state = .draining ∧
      ∀ d, d < 1 → (s.bank d).state ≠ .draining) ∧
    (∃ s, ∃ r : Req, TakesBulk s (r.frame 0x20) ∧ r.lane = 0 ∧ r.payload.length = 2 ∧ field r.payload 0 2 = 0) ∧
    (∃ s, ∃ r : Req, TakesBulk s (r.frame 0x25) ∧ r.lane = 0 ∧ r.payload = [] ∧ s.stagingBank = some 1) ∧
    (∃ s, ∃ r : Req, TakesBulk s (r.frame 0x25) ∧ r.lane = 0 ∧ r.payload = [] ∧ s.stagingBank = none) := by
  unfold TakesBulk
  let t (k : Byte) (p : List Byte) (x : Bank) : State := asked k p (withBank x (shop .idle Context.initial))
  exact ⟨⟨t 0x20 [255, 255] .initial, rq 0 [255, 255], by decide +kernel⟩,
    ⟨t 0x20 [0, 1] stagingA, rq 0 [0, 1], by decide +kernel⟩,
    ⟨t 0x20 [0, 1] { bankA with state := .draining }, rq 0 [0, 1], by decide +kernel⟩,
    ⟨t 0x20 [0, 0] .initial, rq 0 [0, 0], by decide +kernel⟩,
    ⟨t 0x25 [] stagingA, rq 0 [], by decide +kernel⟩,
    ⟨t 0x25 [] .initial, rq 0 [], by decide +kernel⟩⟩

/-- The 32 bytes of an offer entry of the given id: QTY_BREAK on item 1 for tier 3, days 1 to 65535. -/
def entryBytes (id : Nat) : List Byte :=
  enc 2 id ++ [1, 2, 3, 1, 7, 0] ++ enc 2 1 ++ enc 2 65535 ++ enc 8 1 ++ enc 4 2 ++ enc 4 5 ++ enc 2 9 ++ enc 2 0

/-- `n` offers with ids 10, 11, and so on. -/
def manyOffers (n : Nat) : List Offer := (List.range n).map fun i => { offerA with id := 10 + i }

/-- An OFFER_PUT of offers 9 and 1. -/
def putReq : Req := rq 0 ([2] ++ entryBytes 9 ++ entryBytes 1)

/-- `shop` with `n` offers in the staging bank, asked for `putReq`. -/
def putState (n : Nat) : State :=
  asked 0x21 putReq.payload (withBank { stagingA with offers := manyOffers n } (shop .idle Context.initial))

theorem manyOffers_ordered (n : Nat) : (manyOffers n).Pairwise (fun o p => o.id < p.id) := by
  unfold manyOffers
  rw [List.pairwise_map]
  exact List.Pairwise.imp (fun {a b} (h : a < b) => (Nat.add_lt_add_left h 10 : 10 + a < 10 + b)) List.pairwise_lt_range

theorem manyOffers_ids (n : Nat) : ∀ o ∈ manyOffers n, 10 ≤ o.id := by
  unfold manyOffers
  intro o h
  obtain ⟨i, -, rfl⟩ := List.mem_map.mp h
  exact Nat.le_add_right 10 i

/-- OfferPutInsertsInIdOrder: up to 384 offers exactly, and one past it. -/
theorem witness_offerPut :
    ∀ n, n = 382 ∨ n = 383 → ∃ s es, TakesBulk s (putReq.frame 0x21) ∧ putReq.lane = 0 ∧ s.stagingBank = some 1 ∧
      field putReq.payload 0 1 = 2 ∧ putReq.payload.length = 1 + 2 * 32 ∧
      es = (List.range 2).map (fun i => (putReq.payload.drop (1 + i * 32)).take 32) ∧
      (∀ e ∈ es, firstBad (offerChecks e) = none) ∧ (es.map fun e => field e 0 2).Nodup ∧
      (∀ e ∈ es, ∀ o ∈ (s.bank 1).offers, o.id ≠ field e 0 2) ∧
      (s.bank 1).offers.Pairwise (fun o p => o.id < p.id) ∧ (s.bank 1).offers.length + es.length = n + 2 := by
  intro n _
  refine ⟨putState n, _, ⟨rfl, rfl, rfl, rfl⟩, rfl, rfl, by decide +kernel, by decide +kernel, rfl,
    by decide +kernel, by decide +kernel, fun e he o ho => ?_, manyOffers_ordered n, by
      show (manyOffers n).length + _ = _
      simp [manyOffers]⟩
  have h1 := manyOffers_ids n o ho
  have h2 : ∀ e ∈ (List.range 2).map (fun i => (putReq.payload.drop (1 + i * 32)).take 32), field e 0 2 < 10 := by
    decide +kernel
  have h3 := h2 e he
  omega

/-- The bank state of `putState` with one offer of id `id`, asked for an OFFER_PUT of entries of other ids or contents. -/
def putEntries (id : Nat) (es : List (List Byte)) : State :=
  asked 0x21 (enc 1 es.length ++ es.flatten) (withBank { stagingA with offers := [{ offerA with id := id }] }
    (shop .idle Context.initial))

/-- OfferPutInsertsInIdOrder's refusals: no staging bank; counts 0 and 6 and a length one short; a second entry with a
last day before its first, where the first is valid; one of the first entry's id, and one of an id the bank holds. -/
theorem witness_offerPutRefused :
    (∃ s, ∃ r : Req, TakesBulk s (r.frame 0x21) ∧ r.lane = 0 ∧ s.stagingBank = none) ∧
    (∀ p ∈ [[(0 : Byte)], 6 :: List.replicate 192 0, 1 :: List.replicate 31 0], ∃ s, TakesBulk s ((rq 0 p).frame 0x21) ∧
      s.stagingBank = some 1 ∧ (field p 0 1 = 0 ∨ field p 0 1 = 6 ∨ p.length ≠ 1 + field p 0 1 * 32)) ∧
    (∀ e ∈ [(entryBytes 2).set 9 0 |>.set 10 0 |>.set 11 0], ∃ s, (∃ r : Req, TakesBulk s (r.frame 0x21) ∧ r.lane = 0 ∧
      field r.payload 0 1 = 2 ∧ r.payload.length = 1 + 2 * 32 ∧
      [entryBytes 1, e] = (List.range 2).map (fun i => (r.payload.drop (1 + i * 32)).take 32)) ∧ s.stagingBank = some 1 ∧
      firstBad (offerChecks (entryBytes 1)) = none ∧ (∀ o ∈ (s.bank 1).offers, o.id ≠ 1) ∧ FirstFails (offerChecks e) 8) ∧
    (∀ id ∈ [(1 : Nat), 9], ∃ s, (∃ r : Req, TakesBulk s (r.frame 0x21) ∧ r.lane = 0 ∧ field r.payload 0 1 = 2 ∧
      r.payload.length = 1 + 2 * 32 ∧
      [entryBytes 1, entryBytes id] = (List.range 2).map (fun i => (r.payload.drop (1 + i * 32)).take 32)) ∧
      s.stagingBank = some 1 ∧ firstBad (offerChecks (entryBytes 1)) = none ∧ (∀ o ∈ (s.bank 1).offers, o.id ≠ 1) ∧
      firstBad (offerChecks (entryBytes id)) = none ∧
      ((∃ o ∈ (s.bank 1).offers,
        o.id = field (entryBytes id) 0 2) ∨ field (entryBytes 1) 0 2 = field (entryBytes id) 0 2)) := by
  unfold TakesBulk
  simp only [firstFails_iff]
  refine ⟨⟨asked 0x21 [] (shop .idle Context.initial), rq 0 [], by decide +kernel⟩,
    fun p hp => ⟨asked 0x21 p (withBank stagingA (shop .idle Context.initial)), by revert p; decide +kernel⟩,
    fun e he => ⟨putEntries 9 [entryBytes 1, e], ⟨rq 0 (enc 1 2 ++ (entryBytes 1 ++ e)), ?_⟩, ?_⟩,
    fun id hid => ⟨putEntries 9 [entryBytes 1, entryBytes id],
      ⟨rq 0 (enc 1 2 ++ (entryBytes 1 ++ entryBytes id)), ?_⟩, ?_⟩⟩
  · revert e; decide +kernel
  · revert e; decide +kernel
  · revert id; decide +kernel
  · revert id; decide +kernel

/-- The checks of SCHEDULE_PUT, as CloseAndScheduleMakeABankReady lists them. -/
def scheduleFields (p : List Byte) : List (Bool × Nat) :=
  [ (decide (field p 0 1 ≤ 100), 0), (decide (field p 1 1 ≤ 100), 1), (decide (field p 2 1 ≤ 100), 2),
    (decide (field p 3 1 ≤ 100), 3), (decide (1 ≤ field p 4 2 ∧
      field p 4 2 ≤ 10000), 4), (decide (field p 6 4 ≤ 100000), 6) ]

/-- CloseAndScheduleMakeABankReady without a staging bank, and each field of a schedule just out of range. -/
theorem witness_scheduleRefused :
    (∃ s, ∃ r : Req, TakesBulk s (r.frame 0x22) ∧ r.lane = 0 ∧ r.payload.length = 6 ∧ s.stagingBank = none) ∧
    (∃ s, ∃ r : Req, TakesBulk s (r.frame 0x23) ∧ r.lane = 0 ∧ r.payload.length = 18 ∧ s.stagingBank = none) ∧
    (∀ x ∈ [([(101 : Byte), 101, 101, 101] ++ enc 2 0 ++ enc 4 100001 ++ enc 8 0, 0),
      ([100, 101, 0, 0] ++ enc 2 1 ++ enc 12 0, 1),
        ([0, 0, 101, 0] ++ enc 2 1 ++ enc 12 0, 2), ([0, 0, 0, 101] ++ enc 2 1 ++ enc 12 0, 3),
          ([0, 0, 0, 0] ++ enc 2 0 ++ enc 12 0, 4),
        ([0, 0, 0, 0] ++ enc 2 10001 ++ enc 12 0, 4), ([0, 0, 0, 0] ++ enc 2 10000 ++ enc 4 100001 ++ enc 8 0, 6)],
      ∃ s, (TakesBulk s ((rq 0 x.1).frame 0x23) ∧ x.1.length = 18 ∧ s.stagingBank = some 1) ∧
        FirstFails (scheduleFields x.1) x.2) := by
  unfold TakesBulk
  simp only [firstFails_iff]
  exact ⟨⟨asked 0x22 (enc 6 0) (shop .idle Context.initial), rq 0 (enc 6 0), by decide +kernel⟩,
    ⟨asked 0x23 (enc 18 0) (shop .idle Context.initial), rq 0 (enc 18 0), by decide +kernel⟩,
    fun x hx => ⟨asked 0x23 x.1 (withBank stagingA (shop .idle Context.initial)), by revert x; decide +kernel⟩⟩

/-- CloseAndScheduleMakeABankReady: a matching OFFERS_CLOSE of an empty section with and without a schedule, one with a
wrong count, and a SCHEDULE_PUT with the greatest and the least values, for an OPEN and a CLOSED section. -/
theorem witness_close :
    (∀ sch : Option Schedule, sch = none ∨ sch = some scheduleA →
      ∃ s, ∃ r : Req, ∃ check, TakesBulk s (r.frame 0x22) ∧ r.lane = 0 ∧ s.stagingBank = some 1 ∧
        (s.bank 1).schedule = sch ∧
        check = (crc32 ((s.bank 1).offers.flatMap Offer.image)).toNat ∧ r.payload.length = 6 ∧
        field r.payload 0 2 = (s.bank 1).offers.length ∧ field r.payload 2 4 = check) ∧
    (∃ s, ∃ r : Req, ∃ check, TakesBulk s (r.frame 0x22) ∧ r.lane = 0 ∧ s.stagingBank = some 1 ∧
        check = (crc32 ((s.bank 1).offers.flatMap Offer.image)).toNat ∧ r.payload.length = 6 ∧
        field r.payload 0 2 ≠ (s.bank 1).offers.length) ∧
    (∃ s, ∃ r : Req, TakesBulk s (r.frame 0x23) ∧ r.lane = 0 ∧ s.stagingBank = some 1 ∧ (s.bank 1).closed = true ∧
      r.payload.length = 18 ∧ field r.payload 0 1 = 100 ∧ field r.payload 1 1 = 100 ∧ field r.payload 2 1 = 100 ∧
      field r.payload 3 1 = 100 ∧ field r.payload 4 2 = 10000 ∧ field r.payload 6 4 = 100000) ∧
    (∃ s, ∃ r : Req, TakesBulk s (r.frame 0x23) ∧ r.lane = 0 ∧ s.stagingBank = some 1 ∧ (s.bank 1).closed = false ∧
      r.payload.length = 18 ∧ field r.payload 0 1 = 0 ∧ field r.payload 1 1 = 0 ∧ field r.payload 2 1 = 0 ∧
      field r.payload 3 1 = 0 ∧ field r.payload 4 2 = 1 ∧ field r.payload 6 4 = 0) := by
  unfold TakesBulk
  let t (k : Byte) (p : List Byte) (x : Bank) : State := asked k p (withBank x (shop .idle Context.initial))
  let p1 : List Byte := [100, 100, 100, 100] ++ enc 2 10000 ++ enc 4 100000 ++ enc 8 0
  let p2 : List Byte := [0, 0, 0, 0] ++ enc 2 1 ++ enc 4 0 ++ enc 8 0
  refine ⟨fun sch h => ?_, ⟨t 0x22 [0, 1, 0, 0, 0, 0] stagingA, rq 0 [0, 1, 0, 0, 0, 0], 0, by decide +kernel⟩,
    ⟨t 0x23 p1 { stagingA with closed := true }, rq 0 p1, by decide +kernel⟩,
    ⟨t 0x23 p2 stagingA, rq 0 p2, by decide +kernel⟩⟩
  rcases h with rfl | rfl
  · exact ⟨t 0x22 [0, 0, 0, 0, 0, 0] stagingA, rq 0 [0, 0, 0, 0, 0, 0], 0, by decide +kernel⟩
  · exact ⟨t 0x22 [0, 0, 0, 0, 0, 0] { stagingA with schedule := some scheduleA }, rq 0 [0, 0, 0, 0, 0, 0], 0,
      by decide +kernel⟩

/-- BankCommitReplacesTheCurrentBank: no former bank, a former bank with and without pins, an equal generation, a STAGING
bank, and none. -/
theorem witness_commit :
    (∃ s, ∃ r : Req, TakesBulk s (r.frame 0x24) ∧ r.lane = 0 ∧ r.payload = [] ∧ (s.bank 1).state = .ready ∧
      ∀ d, d ≠ 1 → (s.bank d).state ≠ .ready ∧ (s.bank d).state ≠ .current) ∧
    (∃ s, ∃ r : Req, TakesBulk s (r.frame 0x24) ∧ r.lane = 0 ∧ r.payload = [] ∧ (s.bank 1).state = .ready ∧
      (s.bank 0).state = .current ∧ (s.bank 0).generation + 1 = (s.bank 1).generation ∧ (s.bank 0).pins = 1) ∧
    (∃ s, ∃ r : Req, TakesBulk s (r.frame 0x24) ∧ r.lane = 0 ∧ r.payload = [] ∧ (s.bank 1).state = .ready ∧
      (s.bank 0).state = .current ∧ (s.bank 0).generation < (s.bank 1).generation ∧ (s.bank 0).pins = 0) ∧
    (∃ s, ∃ r : Req, TakesBulk s (r.frame 0x24) ∧ r.lane = 0 ∧ r.payload = [] ∧ (s.bank 1).state = .ready ∧
      (s.bank 0).state = .current ∧ (s.bank 1).generation = (s.bank 0).generation) ∧
    (∃ s, ∃ r : Req, TakesBulk s (r.frame 0x24) ∧ r.lane = 0 ∧ r.payload = [] ∧ s.stagingBank = some 1 ∧
      ∀ d, (s.bank d).state ≠ .ready) ∧
    (∃ s, ∃ r : Req, TakesBulk s (r.frame 0x24) ∧ r.lane = 0 ∧ r.payload = [] ∧ s.stagingBank = none) := by
  unfold TakesBulk
  let t (x y : Bank) : State := asked 0x24 [] { shop .idle Context.initial with banks := #v[x, y] }
  let ready (g : Nat) : Bank := { bankA with state := .ready, generation := g, pins := 0 }
  exact ⟨⟨t .initial (ready 6), rq 0 [], by decide +kernel⟩, ⟨t bankA (ready 6), rq 0 [], by decide +kernel⟩,
    ⟨t { bankA with pins := 0 } (ready 6), rq 0 [], by decide +kernel⟩, ⟨t bankA (ready 5), rq 0 [], by decide +kernel⟩,
    ⟨t bankA stagingA, rq 0 [], by decide +kernel⟩, ⟨t bankA .initial, rq 0 [], by decide +kernel⟩⟩

/-! ### Device requests -/

/-- An authority table of `n` supervisors. -/
def manySupervisors (n : Nat) : List Supervisor :=
  (List.range n).map fun i => { id := 1 + i, level := 1, lineLimit := 1, basketCap := 0 }

/-- An AUTHORITY_LOAD of supervisor 1, at the greatest values, and of the new supervisor 99. -/
def loadReq : Req := rq 0 ([2] ++ (enc 3 1 ++ [3] ++ enc 2 10000 ++ enc 4 99999999) ++ (enc 3 99 ++ [1] ++ enc 2 1
    ++ enc 4 0))

/-- AuthorityTableIsLoadedAndCleared: a load that fills the table and one too many, a removal of a held id and of another,
and a clear. -/
theorem witness_authority :
    (∀ n, n = 23 ∨ n = 24 → ∃ s es, AuthoritySound s ∧ TakesBulk s (loadReq.frame 0x26) ∧ loadReq.lane = 0 ∧
      field loadReq.payload 0 1 = 2 ∧ loadReq.payload.length = 1 + 2 * 10 ∧
      es = (List.range 2).map (fun i => (loadReq.payload.drop (1 + i * 10)).take 10) ∧
      (∀ e ∈ es, firstBad (supervisorChecks e) = none) ∧ (es.map fun e => field e 0 3).Nodup ∧
      (es.filter fun e => (s.supervisor (field e 0 3)).isNone).length = 1 ∧ s.authority.length + 1 = n + 1) ∧
    (∃ s, ∃ r : Req, ∃ e, AuthoritySound s ∧ TakesBulk s (r.frame 0x27) ∧ r.lane = 0 ∧ r.payload.length = 3 ∧
      24 = field r.payload 0 3 ∧ s.supervisor 24 = some e) ∧
    (∃ s, ∃ r : Req, AuthoritySound s ∧ TakesBulk s (r.frame 0x27) ∧ r.lane = 0 ∧ r.payload.length = 3 ∧
      25 = field r.payload 0 3 ∧ s.supervisor 25 = none) ∧
    (∃ s, ∃ r : Req, AuthoritySound s ∧ TakesBulk s (r.frame 0x28) ∧ r.lane = 0 ∧ r.payload = []) := by
  unfold AuthoritySound TakesBulk
  let t (k : Byte) (p : List Byte) (n : Nat) : State :=
    asked k p { shop .idle Context.initial with authority := manySupervisors n }
  refine ⟨fun n h => ?_, ⟨t 0x27 [0, 0, 24] 24, rq 0 [0, 0, 24], { id := 24, level := 1, lineLimit := 1, basketCap := 0 },
      by decide +kernel⟩,
    ⟨t 0x27 [0, 0, 25] 24, rq 0 [0, 0, 25], by decide +kernel⟩, ⟨t 0x28 [] 24, rq 0 [], by decide +kernel⟩⟩
  rcases h with rfl | rfl
  · exact ⟨t 0x26 loadReq.payload 23, (List.range 2).map fun i => (loadReq.payload.drop (1 + i * 10)).take 10,
      by decide +kernel⟩
  · exact ⟨t 0x26 loadReq.payload 24, (List.range 2).map fun i => (loadReq.payload.drop (1 + i * 10)).take 10,
      by decide +kernel⟩

/-- The checks of one authority entry, as AuthorityTableIsLoadedAndCleared lists them. -/
def supervisorFields (x : List Byte) : List (Bool × Nat) :=
  [ (decide (1 ≤ field x 0 3), 0), (decide (1 ≤ field x 3 1 ∧ field x 3 1 ≤ 3), 3),
    (decide (1 ≤ field x 4 2 ∧ field x 4 2 ≤ 10000), 4), (decide (field x 6 4 ≤ 99999999), 6) ]

/-- A valid authority entry. -/
def supervisorEntry (id : Nat) : List Byte := enc 3 id ++ [1] ++ enc 2 1 ++ enc 4 0

/-- AuthorityTableIsLoadedAndCleared's refusals: counts 0 and 7 and a length one short; a second entry with each of
its fields just out of range, alone or before others; a second entry of the first one's id; and a removal of id 0. -/
theorem witness_authorityRefused :
    (∀ p ∈ [[(0 : Byte)], 7 :: List.replicate 70 0, 1 :: List.replicate 9 0], ∃ s, AuthoritySound s ∧
      TakesBulk s ((rq 0 p).frame 0x26) ∧ (field p 0 1 = 0 ∨ field p 0 1 = 7 ∨ p.length ≠ 1 + field p 0 1 * 10)) ∧
    (∀ x ∈ [(enc 3 0 ++ [4] ++ enc 2 0 ++ enc 4 100000000, 0), (enc 3 2 ++ [0] ++ enc 2 0 ++ enc 4 100000000, 3),
        (enc 3 2 ++ [4] ++ enc 2 1 ++ enc 4 0, 3), (enc 3 2 ++ [3] ++ enc 2 0 ++ enc 4 100000000, 4),
        (enc 3 2 ++ [3] ++ enc 2 10001 ++ enc 4 0, 4), (enc 3 2 ++ [3] ++ enc 2 10000 ++ enc 4 100000000, 6)],
      ∃ s, (AuthoritySound s ∧ ∃ r : Req, TakesBulk s (r.frame 0x26) ∧ r.lane = 0 ∧ field r.payload 0 1 = 2 ∧
        r.payload.length = 1 + 2 * 10 ∧
        [supervisorEntry 1, x.1] = (List.range 2).map (fun i => (r.payload.drop (1 + i * 10)).take 10)) ∧
        (∀ y ∈ supervisorFields (supervisorEntry 1), y.1 = true) ∧ FirstFails (supervisorFields x.1) x.2) ∧
    (∃ s, AuthoritySound s ∧ ∃ r : Req, TakesBulk s (r.frame 0x26) ∧ r.lane = 0 ∧ field r.payload 0 1 = 2 ∧
      r.payload.length = 1 + 2 * 10 ∧
      [supervisorEntry 1, supervisorEntry 1] = (List.range 2).map (fun i => (r.payload.drop (1 + i * 10)).take 10) ∧
      ∀ y ∈ supervisorFields (supervisorEntry 1), y.1 = true) ∧
    (∃ s, AuthoritySound s ∧ ∃ r : Req, TakesBulk s (r.frame 0x27) ∧ r.lane = 0 ∧ r.payload.length = 3 ∧
      field r.payload 0 3 = 0) := by
  unfold AuthoritySound TakesBulk
  simp only [firstFails_iff]
  let t (k : Byte) (p : List Byte) : State := asked k p (shop .idle Context.initial)
  let two (e : List Byte) : List Byte := 2 :: (supervisorEntry 1 ++ e)
  refine ⟨fun p hp => ⟨t 0x26 p, by revert p; decide +kernel⟩,
    fun x hx => ⟨t 0x26 (two x.1), ⟨?_, rq 0 (two x.1), ?_⟩, by decide +kernel, ?_⟩,
    ⟨t 0x26 (two (supervisorEntry 1)), by decide +kernel, rq 0 (two (supervisorEntry 1)), by decide +kernel⟩,
    ⟨t 0x27 [0, 0, 0], by decide +kernel, rq 0 [0, 0, 0], by decide +kernel⟩⟩ <;> revert x <;> decide +kernel

/-- QueriesReportAndChangeNothing: account id 0, serial 0, STATUS parts 0 and 4; an account the table holds and the
greatest id, a claim, IDENTIFY, and the three parts of STATUS. -/
theorem witness_queries :
    (∃ s, TakesBulk s ((rq 0 (enc 5 0)).frame 0x2A) ∧ field (enc 5 0) 0 5 = 0) ∧
    (∃ s, TakesBulk s ((rq 0 (enc 6 0)).frame 0x2B) ∧ field (enc 6 0) 0 6 = 0) ∧
    (∀ part ∈ [(0 : Byte), 4], ∃ s, TakesBulk s ((rq 0 [part]).frame 0x31) ∧ part ≠ 1 ∧ part ≠ 2 ∧ part ≠ 3) ∧
    (∃ s, ∃ r : Req, ∃ e, TakesBulk s (r.frame 0x2A) ∧ r.lane = 0 ∧ r.payload.length = 5 ∧ 1 ≤ field r.payload 0 5 ∧
      field r.payload 0 5 ≤ 1099511627775 ∧ s.account (field r.payload 0 5) = some e) ∧
    (∃ s, ∃ r : Req, TakesBulk s (r.frame 0x2A) ∧ r.lane = 0 ∧ r.payload.length = 5 ∧
      field r.payload 0 5 = 1099511627775 ∧ s.account (field r.payload 0 5) = none) ∧
    (∃ s, ∃ r : Req, TakesBulk s (r.frame 0x2B) ∧ r.lane = 0 ∧ r.payload.length = 6 ∧ 1 = field r.payload 0 6) ∧
    (∃ s, ∃ r : Req, TakesBulk s (r.frame 0x30) ∧ r.lane = 0 ∧ r.payload = []) ∧
    (∃ s, ∃ r : Req, TakesBulk s (r.frame 0x31) ∧ r.lane = 0 ∧ r.payload = [1]) ∧
    (∃ s, ∃ r : Req, TakesBulk s (r.frame 0x31) ∧ r.lane = 0 ∧ r.payload = [2]) ∧
    (∃ s, ∃ r : Req, TakesBulk s (r.frame 0x31) ∧ r.lane = 0 ∧ r.payload = [3] ∧ BasketsSound s) := by
  unfold TakesBulk
  let t (k : Byte) (p : List Byte) : State := asked k p (shop .opened basketA)
  have part3 : BasketsSound (t 0x31 [3]) := basketsSound_shop rfl rfl rfl rfl
  refine ⟨⟨t 0x2A (enc 5 0), by decide +kernel⟩, ⟨t 0x2B (enc 6 0), by decide +kernel⟩,
    fun part h => ⟨t 0x31 [part], by revert part; decide +kernel⟩,
      ⟨asked 0x2A (enc 5 7) (withAccount accountA (shop .opened basketA)), rq 0 (enc 5 7), accountA, by decide +kernel⟩,
    ⟨t 0x2A (enc 5 1099511627775), rq 0 (enc 5 1099511627775), by decide +kernel⟩,
    ⟨t 0x2B (enc 6 1), rq 0 (enc 6 1), by decide +kernel⟩, ⟨t 0x30 [], rq 0 [], by decide +kernel⟩,
    ⟨t 0x31 [1], rq 0 [1], by decide +kernel⟩, ⟨t 0x31 [2], rq 0 [2], by decide +kernel⟩,
    ⟨t 0x31 [3], rq 0 [3], by decide +kernel, by decide +kernel, rfl, part3⟩⟩

/-- The payload of a CONFIGURE. -/
def configBytes (groups : List Byte) (priority mode mark1 mark2 : Byte) (time margin : Nat) (flags level : Byte)
    (life idle park : Nat) : List Byte :=
  [255] ++ groups ++ [2, 0, 1] ++ [priority, mode, mark1, mark2] ++ enc 2 time ++ enc 2 margin ++ [flags, level]
    ++ enc 2 life ++ enc 2 idle ++ enc 2 park

/-- The checks of CONFIGURE, as ConfigureReplacesTheConfiguration lists them. -/
def configFields (p : List Byte) : List (Bool × Nat) :=
  [ (decide (∀ i : Fin 8, field p (1 + i.val) 1 ≤ 2), 1),
    (decide ((field p 9 1 ≤ 2 ∧ field p 10 1 ≤ 2 ∧ field p 11 1 ≤ 2) ∧ field p 9 1 ≠ field p 10 1 ∧
      field p 9 1 ≠ field p 11 1 ∧ field p 10 1 ≠ field p 11 1), 9),
    (decide (field p 12 1 ≤ 8), 12), (decide (field p 13 1 ≤ 1), 13),
    (decide (4 ≤ field p 14 1 ∧ field p 14 1 ≤ 23), 14), (decide (2 ≤ field p 15 1 ∧ field p 15 1 ≤ 7), 15),
    (decide (1 ≤ field p 16 2), 16), (decide (field p 18 2 < field p 16 2), 18), (decide (field p 20 1 ≤ 3), 20),
    (decide (field p 21 1 ≤ 7), 21), (decide (10 ≤ field p 22 2 ∧ field p 22 2 ≤ 3600), 22),
    (decide (field p 24 2 = 0 ∨ (10 ≤ field p 24 2 ∧ field p 24 2 ≤ 3600)), 24),
    (decide (60 ≤ field p 26 2 ∧ field p 26 2 ≤ 14400), 26) ]

/-- The greatest values CONFIGURE accepts. -/
def greatest : List Byte := configBytes [2, 2, 2, 2, 2, 2, 2, 2] 8 1 23 7 65535 65534 3 7 3600 3600 14400

/-- ConfigureReplacesTheConfiguration: each field just out of range; every field at its greatest value, every field at its
least; and a lane with a basket. -/
theorem witness_configure :
    (∀ x ∈ [(greatest.set 8 3, 1), (greatest.set 9 3, 9), (greatest.set 9 1, 9), (greatest.set 12 9, 12),
      (greatest.set 13 2, 13),
        (greatest.set 14 3, 14), (greatest.set 14 24, 14), (greatest.set 15 1, 15), (greatest.set 15 8, 15),
        ((greatest.set 16 0).set 17 0, 16), (greatest.set 19 255, 18), (greatest.set 20 4, 20), (greatest.set 21 8, 21),
        ((greatest.set 22 0).set 23 9, 22), ((greatest.set 22 0x0E).set 23 0x11, 22), ((greatest.set 24 0).set 25 9, 24),
        ((greatest.set 24 0x0E).set 25 0x11, 24), ((greatest.set 26 0).set 27 59, 26),
          ((greatest.set 26 0x38).set 27 0x41, 26)],
      ∃ s, (TakesBulk s ((rq 0 x.1).frame 0x2C) ∧ x.1.length = 28 ∧ ∀ l, (s.lane l).state.holdsBasket = false) ∧
        FirstFails (configFields x.1) x.2) ∧
    (∀ p ∈ [greatest, configBytes [0, 0, 0, 0, 0, 0, 0, 0] 0 0 4 2 1 0 0 0 10 0 60], ∃ s,
      TakesBulk s ((rq 0 p).frame 0x2C) ∧
      p.length = 28 ∧ (∀ l, (s.lane l).state.holdsBasket = false) ∧ ∀ y ∈ configFields p, y.1 = true) ∧
    (∃ s, TakesBulk s ((rq 0 (List.replicate 28 0)).frame 0x2C) ∧ ∃ l, (s.lane l).state.holdsBasket = true) := by
  unfold TakesBulk
  simp only [firstFails_iff]
  refine ⟨fun x hx => ⟨asked 0x2C x.1 (shop .idle Context.initial), ?_⟩,
    fun p hp => ⟨asked 0x2C p (shop .idle Context.initial), ?_⟩,
    ⟨asked 0x2C (List.replicate 28 0) (shop .quoting basketA), by decide +kernel⟩⟩
  · revert x; decide +kernel
  · revert p; decide +kernel

/-- DayOpenSetsTheDayAndDropsSpentClaims: the day after the store day with a SPENT entry and without one, a lane with a
basket, and the store day itself. -/
theorem witness_dayOpen :
    (∃ s, ∃ r : Req, TakesBulk s (r.frame 0x2D) ∧ r.lane = 0 ∧ r.payload.length = 2 ∧ 4 = field r.payload 0 2 ∧
      (∀ l, (s.lane l).state.holdsBasket = false) ∧ s.device.day + 1 = 4 ∧ s.claims.any ClaimEntry.isSpent = true) ∧
    (∃ s, ∃ r : Req, TakesBulk s (r.frame 0x2D) ∧ r.lane = 0 ∧ r.payload.length = 2 ∧ 65535 = field r.payload 0 2 ∧
      (∀ l, (s.lane l).state.holdsBasket = false) ∧ s.device.day < 65535 ∧ s.claims.any ClaimEntry.isSpent = false) ∧
    (∃ s, ∃ r : Req, TakesBulk s (r.frame 0x2D) ∧ r.lane = 0 ∧ r.payload.length = 2 ∧
      ∃ l, (s.lane l).state.holdsBasket = true) ∧
    (∃ s, ∃ r : Req, TakesBulk s (r.frame 0x2D) ∧ r.lane = 0 ∧ r.payload.length = 2 ∧ 3 = field r.payload 0 2 ∧
      (∀ l, (s.lane l).state.holdsBasket = false) ∧ 3 = s.device.day) := by
  unfold TakesBulk
  let t (p : List Byte) : State := asked 0x2D p (shop .idle Context.initial)
  exact ⟨⟨{ t [0, 4] with claims := [{ serial := 1, state := .spent 3 }] }, rq 0 [0, 4], by decide +kernel⟩,
    ⟨t [255, 255], rq 0 [255, 255], by decide +kernel⟩,
    ⟨asked 0x2D [0, 4] (shop .opened basketA), rq 0 [0, 4], by decide +kernel⟩,
    ⟨t [0, 3], rq 0 [0, 3], by decide +kernel⟩⟩

/-- ConditionsAreRaisedClearedAndMasked: all classes, no class, and a class that does not exist, for both requests. -/
theorem witness_conditions :
    ∀ k ∈ [(0x2E : Byte), 0x2F], ∀ n ∈ [0, 255, 256], ∃ s, ∃ r : Req, TakesBulk s (r.frame k) ∧ r.lane = 0 ∧
      r.payload.length = 2 ∧ n = field r.payload 0 2 := by
  unfold TakesBulk
  refine fun k hk n hn => ⟨asked k (enc 2 n) (shop .idle Context.initial), rq 0 (enc 2 n), ?_⟩
  revert k n; decide +kernel

/-! ### Link -/

theorem due_of {s : State} {timer : Option Nat} (d : Nat) (h : timer = some d) (h' : d ≤ s.now) : Due s timer :=
  ⟨d, h, h'⟩

theorem not_due {s : State} {timer : Option Nat} (d : Nat) (h : timer = some d) (h' : s.now < d) : ¬ Due s timer := by
  rintro ⟨x, hx, hn⟩
  rw [h] at hx
  cases hx
  omega

/-- The reset state with its link port changed. -/
def linked (f : Link → Link) : State := { State.reset with link := f State.reset.link }

/-- `shop` with `n` frames in its main queue. -/
def fullQueueOf (n : Nat) : State :=
  { shop .idle Context.initial with
    mainQ := { State.reset.mainQ with frames := List.replicate n ((rq 1 []).frame 1) } }

/-- HoldsStartAndEnd: the greatest level and time, time 0, level 8 and a payload one byte short, and the timer due and
one millisecond from it. -/
theorem witness_hold :
    (∃ s, ∃ r : Req, Live s ∧ r.payload.length = 3 ∧ field r.payload 0 1 = 7 ∧ field r.payload 1 2 = 65535) ∧
    (∃ s, ∃ r : Req, Live s ∧ r.payload.length = 3 ∧ field r.payload 0 1 = 3 ∧ field r.payload 1 2 = 0) ∧
    (∀ p ∈ [[(8 : Byte), 0, 0], [7, 0]], ∃ s, Live s ∧ ¬ (p.length = 3 ∧ field p 0 1 ≤ 7)) ∧
    (∃ s, Live s ∧ Due s s.link.holdTimer) ∧ (∃ s, Live s ∧ ¬ Due s s.link.holdTimer) :=
  ⟨⟨State.reset, rq 0 [7, 255, 255], rfl, rfl, by decide, by decide⟩,
    ⟨State.reset, rq 0 [3, 0, 0], rfl, rfl, by decide, by decide⟩,
    fun p h => ⟨State.reset, rfl, by revert p; decide⟩,
    ⟨linked fun x => { x with holdTimer := some 0 }, rfl, due_of 0 rfl (Nat.le_refl _)⟩,
    ⟨linked fun x => { x with holdTimer := some 1 }, rfl, not_due 1 rfl (by decide)⟩⟩

/-- `n` frames. -/
def someFrames (n : Nat) : List Frame := List.replicate n ((rq 1 []).frame 1)

/-- ArrivalsAreStoredOrAnswered: for each queue room below the watermark, at it, in a CONGESTED queue, and no room;
and the three outcomes of an answer of kind 0xFE. -/
theorem witness_arrivals :
    (∀ (q : QueueId) (l : Byte) (room mark : Nat),
        q = .pool ∧ l = 8 ∧ room = 24 ∧ mark = 18 ∨ q = .bulk ∧ l = 0 ∧ room = 8 ∧ mark = 6 → ∃ f : Frame,
      ¬ (f.kind = 0x40 ∧ holdWellFormed f.payload = true) ∧
      q = (if (isLaneKind f.kind ∨ isBulkKind f.kind) ∧ 1 ≤ f.lane.toNat ∧ f.lane.toNat ≤ 8 then .pool else .bulk) ∧
      (∃ s : State, (s.inbound q).frames.length < room ∧ (s.inbound q).frames.length + 1 < mark) ∧
      (∃ s : State, (s.inbound q).frames.length < room ∧ (s.inbound q).congested = true) ∧
      (∃ s : State, (s.inbound q).frames.length < room ∧ (s.inbound q).congested = false ∧
        mark = (s.inbound q).frames.length + 1) ∧
      (∃ s : State, room = (s.inbound q).frames.length)) ∧
    (∃ s f, TakesBulk s f ∧ isKnownKind f.kind = false) ∧
    (∃ s f, TakesBulk s f ∧ isKnownKind f.kind = true ∧ f.lane.toNat = 9) ∧
    (∃ s f, TakesBulk s f ∧ f.kind = 0x40 ∧ f.lane.toNat = 8) := by
  unfold TakesBulk
  refine ⟨fun q l room mark h => ⟨(rq l []).frame 0x31, ?_⟩, ?_, ?_, ?_⟩
  · let t (n : Nat) (b : Bool) : State :=
      State.setInbound State.reset q { frames := someFrames n, congested := b, renew := none }
    rcases h with ⟨rfl, rfl, rfl, rfl⟩ | ⟨rfl, rfl, rfl, rfl⟩
    · exact ⟨by decide, by decide, ⟨t 16 false, by decide +kernel⟩, ⟨t 23 true, by decide +kernel⟩,
      ⟨t 17 false, by decide +kernel⟩,
        ⟨t 24 true, by decide +kernel⟩⟩
    · exact ⟨by decide, by decide, ⟨t 4 false, by decide +kernel⟩, ⟨t 7 true, by decide +kernel⟩,
      ⟨t 5 false, by decide +kernel⟩,
        ⟨t 8 true, by decide +kernel⟩⟩
  · exact ⟨tells ((rq 1 []).frame 0x77) (shop .idle Context.initial), (rq 1 []).frame 0x77, by decide +kernel⟩
  · exact ⟨tells ((rq 9 []).frame 1) (shop .idle Context.initial), (rq 9 []).frame 1, by decide +kernel⟩
  · exact ⟨tells ((rq 8 [8, 0, 0]).frame 0x40) (shop .idle Context.initial),
    (rq 8 [8, 0, 0]).frame 0x40, by decide +kernel⟩

/-- ReceiverAssemblesFrames: HUNT with each kind of byte, LEN 240 and 241, a byte before the last, the last byte of a
frame whose check agrees and of one whose does not, and the gap timer due and one millisecond from it. -/
theorem witness_receiver :
    (∃ s, Live s ∧ s.link.rx = .hunt ∧ (0x59 : Byte) ≠ 0x5A) ∧
    (∃ s, Live s ∧ s.link.rx = .assemble [] ∧ 240 < (241 : Byte).toNat ∧ (240 : Byte).toNat ≤ 240) ∧
    (∃ s, ∃ len : Byte, ∃ got, Live s ∧ s.link.rx = .assemble (len :: got) ∧ got.length + 2 + 1 = len.toNat + 6) ∧
    (∃ s, ∃ len kind lane tag hi b : Byte, ∃ payload, Live s ∧
      s.link.rx = .assemble (len :: kind :: lane :: tag :: payload ++ [hi]) ∧ payload.length = len.toNat ∧
      (crc16 (len :: kind :: lane :: tag :: payload)).toNat = hi.toNat * 256 + b.toNat) ∧
    (∃ s, ∃ len kind lane tag hi b : Byte, ∃ payload, Live s ∧
      s.link.rx = .assemble (len :: kind :: lane :: tag :: payload ++ [hi]) ∧ payload.length = len.toNat ∧
      (crc16 (len :: kind :: lane :: tag :: payload)).toNat ≠ hi.toNat * 256 + b.toNat) ∧
    (∃ s, Live s ∧ Due s s.link.gap) ∧ (∃ s, Live s ∧ ¬ Due s s.link.gap) := by
  let c : Nat := (crc16 [0, 0x30, 0, 7]).toNat
  let t (got : List Byte) : State := linked fun x => { x with rx := .assemble got }
  exact ⟨⟨State.reset, rfl, rfl, by decide⟩, ⟨t [], rfl, rfl, by decide, by decide⟩,
    ⟨t [0, 0x30, 0, 7], 0, [0x30, 0, 7], rfl, rfl, rfl⟩,
    ⟨t [0, 0x30, 0, 7, BitVec.ofNat 8 (c / 256)], 0, 0x30, 0, 7, BitVec.ofNat 8 (c / 256), BitVec.ofNat 8 c, [], rfl,
      rfl, rfl,
      by decide +kernel⟩,
    ⟨t [0, 0x30, 0, 7, BitVec.ofNat 8 (c / 256)], 0, 0x30, 0, 7, BitVec.ofNat 8 (c / 256), BitVec.ofNat 8 (c + 1),
      [], rfl, rfl, rfl,
      by decide +kernel⟩,
    ⟨linked fun x => { x with gap := some 0 }, rfl, due_of 0 rfl (Nat.le_refl _)⟩,
    ⟨linked fun x => { x with gap := some 1 }, rfl, not_due 1 rfl (by decide)⟩⟩

/-- ReceivingAFrameDeliversIt: the longest payload. -/
theorem witness_receiving :
    ∃ f : Frame, ∃ s : State, f.payload.length = 240 ∧ s.link.rx = .hunt :=
  ⟨(rq 1 (List.replicate 240 0x5A)).frame 0x02, State.reset, List.length_replicate, rfl⟩

/-- TransmitStartChoosesTheNextFrame: STARTED beside a pending device HOLD; after it a device HOLD, each queue's turn,
at the end of a quiet time and without one; and a quiet time, STARTED delayed by a FULL hold, nothing to send. -/
theorem witness_transmitStart :
    (∃ s f fs, Live s ∧ AtBoundary s ∧ s.link.quietUntil = some s.now ∧ s.link.lastSent = none ∧
      s.mainQ.frames = f :: fs ∧
      s.link.hold ≠ .full ∧ s.link.deviceHolds ≠ []) ∧
    (∃ s h hs, Live s ∧ AtBoundary s ∧ s.link.lastSent ≠ none ∧ s.link.deviceHolds = h :: hs) ∧
    (∃ s f fs, Live s ∧ AtBoundary s ∧ s.link.deviceHolds = [] ∧ s.mainQ.frames = f :: fs ∧ s.link.hold = .bulk ∧
      s.notices ≠ [] ∧ s.link.lastSent = some .main) ∧
    (∃ s f fs, Live s ∧ AtBoundary s ∧ s.link.lastSent ≠ none ∧ s.link.deviceHolds = [] ∧ s.mainQ.frames = f :: fs ∧
      s.link.hold = .none ∧ s.notices ≠ [] ∧ s.link.lastSent ≠ some .main) ∧
    (∃ s c cs, Live s ∧ AtBoundary s ∧ s.link.deviceHolds = [] ∧ s.notices = c :: cs ∧ s.link.hold = .none ∧
      s.mainQ.frames ≠ [] ∧ s.link.lastSent = some .main) ∧
    (∃ s c cs, Live s ∧ AtBoundary s ∧ s.link.lastSent ≠ none ∧ s.link.deviceHolds = [] ∧ s.notices = c :: cs ∧
      s.link.hold = .none ∧ s.mainQ.frames = []) ∧
    (∃ s, Live s ∧ ¬ AtBoundary s ∧ s.link.quietUntil = some (s.now + 1)) ∧
    (∃ s, Live s ∧ AtBoundary s ∧ s.link.lastSent = none ∧ s.link.hold = .full) ∧
    (∃ s, Live s ∧ s.link.deviceHolds = [] ∧ (s.mainQ.frames ≠ [] ∧ s.link.hold = .full) ∧
      (s.notices ≠ [] ∧ s.link.hold ≠ .none)) := by
  let t (f : Link → Link) (ns : List CondClass) : State := { linked f with notices := ns }
  let hold : DeviceHold := { scope := .bulk, time := 250 }
  refine ⟨⟨t (fun x => { x with quietUntil := some 0, deviceHolds := [hold] }) [], _, _, rfl,
      ⟨rfl, by decide, fun d h => by cases h; decide⟩, rfl, rfl, rfl, by decide, by decide⟩,
    ⟨t (fun x => { x with lastSent := some .main, deviceHolds := [hold] }) [], _, _, rfl,
      ⟨rfl, by decide, fun d h => by cases h⟩, by decide, rfl⟩,
    ⟨t (fun x => { x with hold := .bulk, lastSent := some .main }) [.holdCut], _, _, rfl,
      ⟨rfl, by decide, fun d h => by cases h⟩, rfl, rfl, rfl, by decide, rfl⟩,
    ⟨t (fun x => { x with lastSent := some .notices }) [.holdCut], _, _, rfl,
      ⟨rfl, by decide, fun d h => by cases h⟩, by decide, rfl, rfl, rfl, by decide, by decide⟩,
    ⟨t (fun x => { x with lastSent := some .main }) [.holdCut], _, _, rfl,
      ⟨rfl, by decide, fun d h => by cases h⟩, rfl, rfl, rfl, by decide, rfl⟩,
    ⟨{ t (fun x => { x with lastSent := some .notices }) [.holdCut] with mainQ := { State.reset.mainQ with frames := [] } },
      _, _, rfl, ⟨rfl, by decide, fun d h => by cases h⟩, by decide, rfl, rfl, rfl, rfl⟩,
    ⟨t (fun x => { x with quietUntil := some 1 }) [], rfl, fun h => absurd (h.2.2 1 rfl) (by decide), rfl⟩,
    ⟨t (fun x => { x with hold := .full }) [], rfl, ⟨rfl, by decide, fun d h => by cases h⟩, rfl, rfl⟩,
    ⟨t (fun x => { x with hold := .full }) [.holdCut], rfl, rfl, ⟨by decide, rfl⟩, by decide, by decide⟩⟩

/-- A device with `n` frames in its bulk queue, the first a STATUS request, in a CONGESTED episode. -/
def congestedA (release : Bool) (holds : List DeviceHold) (n : Nat) : State :=
  { shop .idle Context.initial with
    config := { Configuration.default with release := release }
    link := { State.reset.link with deviceHolds := holds }
    bulk :=
      { frames := (rq 0 [1]).frame 0x31 :: List.replicate n ((rq 0 [2]).frame 0x31), congested := true, renew := some 9 } }

/-- The clauses of `FrameTaken` and `HoldJoins`: the take that ends a congestion episode with RELEASE set, beside a
pending HOLD of the scope and without one, and with RELEASE clear, and a take that leaves a frame. -/
theorem test_congestionEnds :
    let take (s : State) : State := after (exec (.status (rq 0 [1])) s)
    ((take (congestedA true [] 0)).bulk = { frames := [], congested := false, renew := none } ∧
      (take (congestedA true [] 0)).link.deviceHolds = [{ scope := .bulk, time := 0 }]) ∧
    ((take (congestedA true [{ scope := .bulk, time := 250 }] 0)).link.deviceHolds = [{ scope := .bulk, time := 0 }]) ∧
    ((take (congestedA false [] 0)).bulk.congested = false ∧ (take (congestedA false [] 0)).link.deviceHolds = []) ∧
    ((take (congestedA true [] 1)).bulk =
      { frames := [(rq 0 [2]).frame 0x31], congested := true, renew := some 9 }) := by
  decide +kernel

/-- R164: a gap of exactly 20 ms leaves the frame in assembly, one of 21 ms ends it. -/
theorem test_gap :
    let s := after (exec (.byteReceived 0x5A) State.reset)
    exec .gapFault { s with now := 20 } = .next { s with now := 20 } ∧
      (after (exec .gapFault { s with now := 21 })).link.lastFault = .gap := ⟨rfl, by decide +kernel⟩

/-- R182: with a device HOLD pending after a reset, STARTED is begun first and the HOLD after it. -/
theorem test_startedFirst :
    let s := linked fun x => { x with deviceHolds := [{ scope := .bulk, time := 250 }] }
    let t := after (exec .transmitStart s)
    t.link.tx.map (·.frame.kind) = some 0x62 ∧
      (after (exec .transmitStart (after (exec .transmitEnd t)))).link.tx.map (·.frame.kind) = some 0x40 := by
  decide +kernel

/-- R169: with every slot in use and two claims on the list, the end of a transmission serves the freed slot to the
first. -/
theorem test_slotServed :
    let s : State := { fullQueueOf 23 with
      bulk := { Inbound.empty with frames := [(rq 0 [1]).frame 0x31] }
      pool := { Inbound.empty with frames := [(rq 1 []).frame 1] }
      mainQ := { (fullQueueOf 23).mainQ with requests := [.bulkTake, .laneTake] }
      link := { State.reset.link with tx := some { source := .main, frame := (rq 1 []).frame 1 } } }
    (after (exec .transmitEnd s)).mainQ.served = [.bulkTake] ∧
      (after (exec .transmitEnd s)).mainQ.requests = [.laneTake] := by
  decide +kernel

/-- TransmitEndReleasesWhatWasSent: each source, the reply of a RESTART among them, with a renew timer to start or not, an
idle transmitter, and a renew timer due, with RENEW set and not, and not due. -/
theorem witness_transmitEnd :
    (∃ s f, Live s ∧ s.link.tx = some { source := .main, frame := f } ∧ s.device.restart = .replying ∧
      f.kind = 0xB2 ∧ f.payload = [0]) ∧
    (∃ s f c, Live s ∧ s.link.tx = some { source := .notice c, frame := f } ∧ c ∈ s.notices) ∧
    (∃ s f h, Live s ∧ s.link.tx = some { source := .deviceHold h, frame := f } ∧
      (s.inbound h.scope.queue).congested = true ∧ s.config.renew = true ∧ h.time ≠ 0) ∧
    (∃ s f h, Live s ∧ s.link.tx = some { source := .deviceHold h, frame := f } ∧
      (s.inbound h.scope.queue).congested = true ∧ s.config.renew = true ∧ h.time = 0) ∧
    (∃ s, Live s ∧ s.link.tx = none) ∧
    (∀ q : QueueId, ∃ s, Live s ∧ Due s (s.inbound q).renew ∧ (s.inbound q).congested = true ∧ s.config.renew = true) ∧
    (∀ q : QueueId, ∃ s, Live s ∧ Due s (s.inbound q).renew ∧ (s.inbound q).congested = false) ∧
    (∀ q : QueueId, ∃ s, Live s ∧ ¬ Due s (s.inbound q).renew) := by
  let f : Frame := { kind := 0xB2, lane := 0, tag := 7, payload := [0] }
  let t (x : TxSource) : State := linked fun y => { y with tx := some { source := x, frame := f } }
  let held (n : Nat) : State :=
    { t (.deviceHold { scope := .bulk, time := n }) with
      bulk := { Inbound.empty with congested := true }, config := { Configuration.default with renew := true } }
  let timed (q : QueueId) (b : Bool) (n : Nat) : State :=
    State.setInbound { State.reset with config := { Configuration.default with renew := true } } q
      { frames := [], congested := b, renew := some n }
  exact ⟨⟨{ t .main with device := { State.reset.device with restart := .replying } }, f, rfl, rfl, rfl, rfl, rfl⟩,
    ⟨{ t (.notice .holdCut) with notices := [.holdCut] }, f, .holdCut, rfl, rfl, List.mem_singleton.mpr rfl⟩,
    ⟨held 250, f, { scope := .bulk, time := 250 }, rfl, rfl, rfl, rfl, by decide⟩,
    ⟨held 0, f, { scope := .bulk, time := 0 }, rfl, rfl, rfl, rfl, rfl⟩, ⟨State.reset, rfl, rfl⟩,
    fun q => ⟨timed q true 0, by cases q <;> exact ⟨rfl, due_of 0 rfl (Nat.le_refl _), rfl, rfl⟩⟩,
    fun q => ⟨timed q false 0, by cases q <;> exact ⟨rfl, due_of 0 rfl (Nat.le_refl _), rfl⟩⟩,
    fun q => ⟨timed q true 1, by cases q <;> exact ⟨rfl, not_due 1 rfl (by decide)⟩⟩⟩

/-! ### Resolutions -/

/-- A resolve is wanted for the basket of lane 1, whose lane has been passed over `n` times. -/
def wanting (priority : Option LaneNo) (previous : PreviousGrant) (aged : List LaneNo) : State :=
  { shop .opened { basketA with wanted := true } with
    config := { Configuration.default with priority := priority }
    sched := { flight := none, previous := previous, aged := aged } }

/-- GrantTakesTheSnapshot: the priority lane, an aged lane after a priority grant, the first lane of the normal order, a
resolution in flight, and no lane waiting. -/
theorem witness_grant :
    (∀ p previous aged, (p = some (0 : LaneNo) ∧ previous = PreviousGrant.none ∧ aged = []) ∨
        (p = some 0 ∧ previous = .priority ∧ aged = [(0 : LaneNo)]) ∨ (p = none ∧ previous = .other ∧ aged = []) →
      ∃ s, Live s ∧ s.config.priority = p ∧ s.sched.previous = previous ∧ s.sched.aged = aged ∧
        s.sched.flight = none ∧ GrantGoesTo s 0 ∧ (s.lane 0).ctx = some 0 ∧ (s.ctx 0).place = .attached attA ∧
        s.config.groupOrder.Perm [.a, .b, .c]) ∧
    (∃ s x, Live s ∧ s.sched.flight = some x) ∧ (∃ s, Live s ∧ ∀ l, s.waiting l = false) := by
  unfold Live GrantGoesTo
  refine ⟨fun p previous aged h => ⟨wanting p previous aged, ?_⟩,
    ⟨{ State.reset with sched := { flight := some { lane := 0, ctx := 0, snapshot := exampleSnapshot }
                                   previous := .other, aged := [] } }, _, rfl, rfl⟩,
    ⟨State.reset, rfl, by decide⟩⟩
  refine ⟨rfl, rfl, rfl, rfl, rfl, ?_, rfl, rfl, List.Perm.refl _⟩
  rcases h with ⟨rfl, rfl, rfl⟩ | ⟨rfl, rfl, rfl⟩ | ⟨rfl, rfl, rfl⟩
  · exact Or.inl (by decide +kernel)
  · refine Or.inr ⟨fun _ _ _ => by decide, by decide +kernel⟩
  · exact Or.inr ⟨fun q h => by (cases h), Or.inr (by decide +kernel)⟩

/-- A resolution for context 1 in flight, taken at incarnation 1 and revision `n`. -/
def flying (st : LaneState) (n : Counter) (x : Context) : State :=
  { shop st { x with inFlight := true } with
    sched :=
      { flight := some
          { lane := 0, ctx := 0
            snapshot := { exampleSnapshot with incarnation := 1, revision := n, bank := 0, generation := 5, day := 3 } }
        previous := .other, aged := [] } }

/-- The basket in TRACKING mode. -/
def trackedA : Context := { basketA with place := .attached { attA with tracking := .tracking } }

/-- A main queue of `n` frames, the first a SUBTOTAL of lane 1 for its basket, whose slots are in use but for 24 - `n`. -/
def withFrames (n : Nat) (first : Frame) (s : State) : State :=
  { s with mainQ := { s.mainQ with frames := first :: someFrames (n - 1) } }

/-- A SUBTOTAL for the basket of lane 1. -/
def subtotalA : Frame := { kind := 0x60, lane := 1, tag := 0, payload := subtotalPayload 0 quoteA }

/-- CompletionDeliversTheQuote: no flight, a context reopened and one parked, a new revision, and a match on a lane in
QUOTING, in ON_DEMAND mode and in TRACKING mode with a SUBTOTAL in the queue, with one free slot, and without one. -/
theorem witness_completion :
    (∃ s, Live s ∧ s.sched.flight = none) ∧
    (∃ s f, Live s ∧ s.sched.flight = some f ∧ f.ctx = f.snapshot.ctx ∧
      (s.ctx f.ctx).incarnation ≠ f.snapshot.incarnation) ∧
    (∃ s f, Live s ∧ s.sched.flight = some f ∧ f.ctx = f.snapshot.ctx ∧
      (s.ctx f.ctx).place = .parked { ticket := 1, since := 0, expires := 9 }) ∧
    (∃ s f, Live s ∧ s.sched.flight = some f ∧ f.ctx = f.snapshot.ctx ∧ (s.ctx f.ctx).place = .attached attA ∧
      (s.ctx f.ctx).incarnation = f.snapshot.incarnation ∧ (s.ctx f.ctx).revision ≠ f.snapshot.revision) ∧
    (∀ st, st = LaneState.quoting ∨ st = .opened → ∃ s f, Live s ∧ s.sched.flight = some f ∧ f.ctx = f.snapshot.ctx ∧
      (s.ctx f.ctx).place = .attached attA ∧ (s.ctx f.ctx).incarnation = f.snapshot.incarnation ∧
      (s.ctx f.ctx).revision = f.snapshot.revision ∧ (s.lane attA.lane).state = st) ∧
    (∀ n : Nat, n = 1 ∨ n = 0 → ∃ s f, Live s ∧ s.sched.flight = some f ∧ f.ctx = f.snapshot.ctx ∧
      (s.ctx f.ctx).place = .attached { attA with tracking := .tracking } ∧
      (s.ctx f.ctx).incarnation = f.snapshot.incarnation ∧
      (s.ctx f.ctx).revision = f.snapshot.revision ∧ (s.lane attA.lane).state = .opened ∧
      (∀ g ∈ s.mainQ.frames, ¬ SubtotalOf 0 f.ctx f.snapshot.incarnation g) ∧ s.freeSlots = n) ∧
    (∃ s f, Live s ∧ s.sched.flight = some f ∧ f.ctx = f.snapshot.ctx ∧
      (s.ctx f.ctx).place = .attached { attA with tracking := .tracking } ∧
      (s.ctx f.ctx).incarnation = f.snapshot.incarnation ∧
      (s.ctx f.ctx).revision = f.snapshot.revision ∧ (s.lane attA.lane).state = .opened ∧
      ∃ g ∈ s.mainQ.frames, SubtotalOf 0 f.ctx f.snapshot.incarnation g) := by
  unfold Live SubtotalOf
  let other : Frame := (rq 1 []).frame 1
  have flight (st : LaneState) (n : Counter) (x : Context) :
      (flying st n x).sched.flight = some
        { lane := 0, ctx := 0
          snapshot :=
            { exampleSnapshot with incarnation := 1, revision := n, bank := 0, generation := 5, day := 3 } } := rfl
  refine ⟨⟨State.reset, rfl, rfl⟩, ⟨flying .opened 3 { basketA with incarnation := 2 }, _, rfl, rfl, rfl, by decide⟩,
    ⟨flying .idle 3 { basketA with place := .parked { ticket := 1, since := 0, expires := 9 } }, _, rfl, rfl, rfl, rfl⟩,
    ⟨flying .opened 2 basketA, _, rfl, rfl, rfl, rfl, rfl, by decide⟩, fun st h => ?_, fun n h => ?_,
    ⟨withFrames 24 subtotalA (flying .opened 3 trackedA), _, rfl, flight .opened 3 trackedA, rfl, rfl, rfl, rfl, rfl,
      subtotalA, by decide +kernel⟩⟩
  · rcases h with rfl | rfl
    · exact ⟨flying .quoting 3 basketA, _, rfl, rfl, rfl, rfl, rfl, rfl, rfl⟩
    · exact ⟨flying .opened 3 basketA, _, rfl, rfl, rfl, rfl, rfl, rfl, rfl⟩
  · rcases h with rfl | rfl
    · exact ⟨withFrames 23 other (flying .opened 3 trackedA), _, rfl, flight .opened 3 trackedA, rfl, rfl, rfl, rfl,
      rfl, by decide +kernel⟩
    · exact ⟨withFrames 24 other (flying .opened 3 trackedA), _, rfl, flight .opened 3 trackedA, rfl, rfl, rfl, rfl,
      rfl, by decide +kernel⟩

/-! ### Streams and timers -/

/-- A stream of one SETTLE_LINES frame with `n` frames placed. -/
def streamA (n : Nat) : Stream := { ctx := 0, tag := 7, lineFrames := 1, placed := n, crc := crc32Init }

/-- Lane 1 in SETTLING with its stream. -/
def settlingA (n : Nat) : State :=
  { shop .settling { basketA with quote := some quoteA } with
    streams := State.reset.streams.set 0 (some (streamA n)) }

/-- A lane owing a SUBTOTAL. -/
def owingA : State :=
  let s := shop .opened { trackedA with quote := some quoteA }
  s.setLane 0 { s.lane 0 with subtotalOwed := true }

/-- The main queue full. -/
def fullQueue (s : State) : State := withFrames 24 ((rq 1 []).frame 1) s

/-- StreamsArePlacedFrameByFrame: a SUBTOTAL owed, none owed, one owed without a slot; each of the frames 2 to 4 of a
stream of one SETTLE_LINES frame; a lane without a stream and one without a slot; a stream whose frames are all
placed, one whose context has no quote, one with a frame left; and SETTLE_END. -/
theorem witness_streams :
    (∃ s q, Live s ∧ (s.lane 0).subtotalOwed = true ∧ (s.lane 0).ctx = some 0 ∧ (s.ctx 0).quote = some q ∧
      s.slotFor (.owed 0) = true) ∧
    (∃ s, Live s ∧ (s.lane 0).subtotalOwed = false) ∧
    (∃ s, Live s ∧ (s.lane 0).subtotalOwed = true ∧ s.slotFor (.owed 0) = false) ∧
    (∀ n : Nat, n = 2 ∨ n = 3 ∨ n = 4 → ∃ s st q, Live s ∧ s.stream 0 = some st ∧ (s.ctx st.ctx).quote = some q ∧
      st.placed ≠ st.lineFrames + 3 ∧ n = st.placed + 1 ∧ st.lineFrames = 1 ∧ s.slotFor (.stream 0) = true) ∧
    (∃ s, Live s ∧ s.stream 0 = none) ∧
    (∃ s st, Live s ∧ s.stream 0 = some st ∧ s.slotFor (.stream 0) = false) ∧
    (∃ s st, Live s ∧ s.stream 0 = some st ∧ st.placed = st.lineFrames + 3) ∧
    (∃ s st, Live s ∧ s.stream 0 = some st ∧ st.placed ≠ st.lineFrames + 3 ∧ (s.ctx st.ctx).quote = none) ∧
    (∃ s st, Live s ∧ s.stream 0 = some st ∧ st.placed = st.lineFrames + 3 ∧ (s.ctx st.ctx).place = .attached attA ∧
      s.slotFor (.stream 0) = true) := by
  refine ⟨⟨owingA, quoteA, rfl, by decide +kernel⟩, ⟨State.reset, rfl, by decide +kernel⟩,
    ⟨fullQueue owingA, rfl, by decide +kernel⟩,
    fun n h => ?_, ⟨State.reset, rfl, rfl⟩, ⟨fullQueue (settlingA 2), streamA 2, rfl, by decide +kernel⟩,
    ⟨settlingA 4, streamA 4, rfl, by decide +kernel⟩,
    ⟨{ settlingA 2 with ctxs := State.reset.ctxs }, streamA 2, rfl, by decide +kernel⟩,
    ⟨settlingA 4, streamA 4, rfl, by decide +kernel⟩⟩
  rcases h with rfl | rfl | rfl
  · exact ⟨settlingA 1, streamA 1, quoteA, rfl, by decide +kernel⟩
  · exact ⟨settlingA 2, streamA 2, quoteA, rfl, by decide +kernel⟩
  · exact ⟨settlingA 3, streamA 3, quoteA, rfl, by decide +kernel⟩

/-- A basket on lane 1 at idle stage `n`, with its idle timer due at time 9. -/
def idlingA (n now : Nat) : State :=
  let s := shop .opened basketA
  { s.setLane 0 { s.lane 0 with idleStage := n, idleTimer := some 9 } with now := now }

/-- A parked basket due at time 9. -/
def parkedB (now : Nat) : State :=
  { shop .idle { basketA with place := .parked { ticket := 1, since := 0, expires := 9 } } with
    parks := { list := [{ ticket := 1, ctx := 0 }], lastTicket := 1 }, now := now }

/-- A basket with a reservation of one point due at time 9. -/
def reservingA (now : Nat) : State :=
  { withAccount { id := 7, balance := 1, refs := 1, reservations := [{ ctx := 0, points := 1, expires := 9 }] }
      (shop .opened basketA) with now := now }

/-- The law of baskets and lanes, over the numbers of lanes and contexts. -/
def basketsCheck (s : State) : Bool :=
  (allLanes.all fun l =>
    (match (s.lane l).ctx with
      | some c => (s.ctx c).attachment.any fun a => a.lane == l
      | none => true) &&
    ((s.lane l).state.holdsBasket == (s.lane l).ctx.isSome) && (s.stream l).isNone &&
    ((s.lane l).idleTimer.isNone || (s.lane l).state == .opened || (s.lane l).state == .totalled)) &&
  (allCtxs.all fun c =>
    match (s.ctx c).place with
    | .attached a => (s.lane a.lane).ctx == some c
    | .parked p => s.parks.list.contains { ticket := p.ticket, ctx := c }
    | .free => true) &&
  decide ((s.parks.list.map (·.ticket)).Nodup) && decide ((s.parks.list.map (·.ctx)).Nodup) &&
  s.parks.list.all fun e => match (s.ctx e.ctx).place with
    | .parked p => p.ticket == e.ticket
    | _ => false

theorem basketsSound_of {s : State} (h : basketsCheck s = true) : BasketsSound s := by
  simp only [basketsCheck, Bool.and_eq_true, decide_eq_true_eq, List.all_eq_true] at h
  obtain ⟨⟨⟨⟨hl, hc⟩, ht⟩, hx⟩, hp⟩ := h
  have al : ∀ l : LaneNo, l ∈ allLanes := by decide
  have ac : ∀ c : CtxNo, c ∈ allCtxs := by decide
  refine ⟨fun l c e => ?_, fun c a e => ?_, fun l => ?_, fun l st e => ?_, fun l e => ?_, ht, hx, fun e he => ?_,
    fun c p e => ?_⟩
  · have := (hl l (al l)).1.1.1
    rw [e] at this
    simp only [Context.attachment] at this
    split at this
    · rename_i a ha
      exact ⟨a, ha, by simpa using this⟩
    · simp at this
  · have := hc c (ac c)
    rw [e] at this
    simpa using this
  · have := (hl l (al l)).1.1.2
    rw [beq_iff_eq] at this
    rw [this, Option.isSome_iff_ne_none]
  · have := (hl l (al l)).1.2
    rw [e] at this
    simp at this
  · have := (hl l (al l)).2
    simp only [Bool.or_eq_true, beq_iff_eq, Option.isNone_iff_eq_none] at this
    rcases this with (h1 | h1) | h1
    · exact absurd h1 e
    · exact Or.inl h1
    · exact Or.inr h1
  · have := hp e he
    split at this
    · rename_i p hpp
      exact ⟨p, hpp, by simpa using this⟩
    · cases this
  · have := hc c (ac c)
    rw [e] at this
    simpa using this

/-- BasketTimersExpire: each timer at its expiry and one millisecond before it, the idle timer at each stage, an
auto-park that ends a drain and one that does not. -/
theorem witness_timers :
    (∃ s d, Live s ∧ BasketsSound s ∧ AccountsOrdered s ∧ s.reservation 0 = some d ∧ d.expires = s.now ∧
      (s.ctx 0).place = .attached attA) ∧
    (∃ s p, Live s ∧ BasketsSound s ∧ AccountsOrdered s ∧ (s.ctx 0).place = .parked p ∧ p.expires = s.now ∧
      s.reservation 0 = none) ∧
    (∃ s, Live s ∧ BasketsSound s ∧ AccountsOrdered s ∧ (s.lane 0).idleStage = 0 ∧ Due s (s.lane 0).idleTimer) ∧
    (∀ st ∈ [BankState.current, .draining], ∃ s, Live s ∧ BasketsSound s ∧ AccountsOrdered s ∧ (s.lane 0).idleStage = 1 ∧
      Due s (s.lane 0).idleTimer ∧ (s.lane 0).ctx = some 0 ∧ (s.ctx 0).place = .attached attA ∧
      (s.bank attA.bank).state = st ∧ (s.bank attA.bank).pins ≤ 1) ∧
    (∃ s d, Live s ∧ BasketsSound s ∧ AccountsOrdered s ∧ s.reservation 0 = some d ∧ s.now + 1 = d.expires) ∧
    (∃ s p, Live s ∧ BasketsSound s ∧ AccountsOrdered s ∧ (s.ctx 0).place = .parked p ∧ s.now + 1 = p.expires) ∧
    (∃ s, Live s ∧ BasketsSound s ∧ AccountsOrdered s ∧ ¬ Due s (s.lane 0).idleTimer) := by
  unfold AccountsOrdered
  exact ⟨⟨reservingA 9, _, rfl, basketsSound_of (by decide +kernel), by decide +kernel, rfl, rfl, rfl⟩,
    ⟨parkedB 9, _, rfl, basketsSound_of (by decide +kernel), by decide +kernel, rfl, rfl, rfl⟩,
    ⟨idlingA 0 9, rfl, basketsSound_of (by decide +kernel), by decide +kernel, rfl, due_of 9 rfl (Nat.le_refl _)⟩,
    fun st h => ⟨{ idlingA 1 9 with banks := #v[{ bankA with state := st }, .initial] }, rfl,
      basketsSound_of (by revert st; decide +kernel), by revert st; decide +kernel, rfl,
        due_of 9 rfl (Nat.le_refl _), rfl, rfl,
      rfl, Nat.le_refl _⟩,
    ⟨reservingA 8, _, rfl, basketsSound_of (by decide +kernel), by decide +kernel, rfl, rfl⟩,
    ⟨parkedB 8, _, rfl, basketsSound_of (by decide +kernel), by decide +kernel, rfl, rfl⟩,
    ⟨idlingA 0 8, rfl, basketsSound_of (by decide +kernel), by decide +kernel, not_due 9 rfl (by decide)⟩⟩

/-- R54, R160: an auto-park that ends a drain places both notices (their order: assumption 31). -/
theorem test_autoParkNotices :
    (after (exec (.autoPark 0) { idlingA 1 9 with banks := #v[{ bankA with state := .draining }, .initial] })).notices =
      [.bankDrained, .laneIdle] := by
  decide +kernel

/-- ResetsLeaveTheStatedValues: RESTART, a request after one, and a soft reset due and not. -/
theorem witness_resets :
    (∃ s, TakesBulk s ((rq 0 []).frame 0x32) ∧ (rq 0 []).lane = 0 ∧ (rq 0 []).payload = []) ∧
    (∃ s : State, s.device.restart ≠ .none) ∧ (∃ s, Live s ∧ s.device.restart = .due) ∧
    (∃ s, Live s ∧ s.device.restart ≠ .due) := by
  unfold TakesBulk
  exact ⟨⟨asked 0x32 [] (shop .idle Context.initial), by decide +kernel⟩,
    ⟨{ State.reset with device := { State.reset.device with restart := .replying } }, by decide⟩,
    ⟨{ State.reset with device := { State.reset.device with restart := .due } }, rfl, rfl⟩,
    ⟨State.reset, rfl, by decide⟩⟩

/-! ### Quotes and layouts -/

/-- PayableIsGrossLessTheReductions, OnlyApplicableOffersTakePart and RedemptionFollowsTheRate: the worked example has an
overridden, an excluded and other lines, an account with reserved points, and a bank in id order with a keyed offer that
applies. -/
theorem witness_quote :
    (∀ l ∈ exampleSnapshot.lines, l.floor ≤ l.list ∧ ∀ p, l.override = some p → p ≤ l.list) ∧
    (∃ l ∈ exampleSnapshot.lines, l.override = some 700) ∧ (∃ l ∈ exampleSnapshot.lines, l.noOffers = true) ∧
    (∃ l ∈ exampleSnapshot.lines, l.override = none ∧ l.noOffers = false) ∧
    1 ≤ exampleSchedule.redemptionRate ∧
    exampleOffers.Pairwise (fun o p => o.id < p.id) ∧
    exampleSnapshot.coupons[0]? = some { kind := .offerKey 2211, active := true } ∧
    (∃ e ∈ exampleQuote.applied, e.offer = 2211) ∧ exampleQuote.notListed = 0 ∧ exampleQuote.applied ≠ [] := by
  have a : ∀ l ∈ exampleSnapshot.lines, l.floor ≤ l.list ∧ ∀ p ∈ l.override, p ≤ l.list := by decide +kernel
  exact ⟨fun l h => ⟨(a l h).1, fun p e => (a l h).2 p e⟩, by decide +kernel, by decide +kernel, by decide +kernel,
    by decide +kernel, by decide +kernel, by decide +kernel, by decide +kernel, by decide +kernel, by decide +kernel⟩

/-- LineOffersArePricedLineByLine, SpendOffersAndStoreValuesComeOffInOrder and PointsAreEarnedAtTheTiersRate: in the
worked example, whose bank is in id order, a break, stackable offers, an exclusive and a stackable spend offer and a
boost are listed; one store value applies and one does not; the base and the bonus are earned, and without the account
nothing is. -/
theorem witness_pricing :
    exampleOffers.Pairwise (fun o p => o.id < p.id) ∧
    exampleQuote.applied = [{ offer := 1102, lines := 3, saving := 9900 }, { offer := 2210, lines := 1, saving := 2399 },
      { offer := 2211, lines := 3, saving := 1237 }, { offer := 3300, lines := 0, saving := 2500 },
      { offer := 3302, lines := 0, saving := 1200 }, { offer := 4400, lines := 2, saving := 0 }] ∧
    exampleQuote.coupons = [.applied 1237, .applied 1000, .notApplied] ∧ exampleQuote.pointsEarned = 2950 ∧
    (resolve exampleOffers exampleSchedule { exampleSnapshot with account := none }).pointsEarned = 0 ∧
    (resolve exampleOffers exampleSchedule { exampleSnapshot with
      coupons := [{ kind := .offerKey 2211, active := false }] }).coupons = [.dormant] := by
  decide +kernel

/-- OfferImageIsTheEntry: an entry that passes every check. -/
theorem witness_offerImage :
    (entryBytes 65535).length = 32 ∧ firstBad (offerChecks (entryBytes 65535)) = none := by decide +kernel

end Sys2Proof.Tests
end

/-! The agreement of lanes, contexts, streams and the park list (R12, R14, R148, R153): the law told by what the
tables say of each other, what an operation that moves no basket keeps of it, and the four ways in which a basket
comes, goes, is parked and is recalled. -/

namespace Sys2Proof.Machine

/-! ### The law, told by where each context is -/

/-- Where a context is: nowhere, on a lane, or parked under a ticket (R13). -/
inductive Site where
  | nowhere
  | lane (l : LaneNo)
  | ticket (n : Nat)
  deriving DecidableEq

/-- Where a context's state puts it. -/
def Context.site (x : Context) : Site :=
  match x.place with
  | .free => .nowhere
  | .attached a => .lane a.lane
  | .parked p => .ticket p.ticket

/-- The context the stream of a lane settles (R148). -/
def State.streamCtx (s : State) (l : LaneNo) : Option CtxNo := (s.stream l).map (·.ctx)

/-- Lanes, contexts, streams and the park list agree (R12, R148, R153), told by sites. -/
structure BasketsAgree (s : State) : Prop where
  named : ∀ l c, (s.lane l).ctx = some c ↔ (s.ctx c).site = .lane l
  holds : ∀ l, (s.lane l).state.holdsBasket = (s.lane l).ctx.isSome
  settles : ∀ l c, s.streamCtx l = some c → (s.lane l).state = .settling ∧ (s.lane l).ctx = some c
  timers : IdleTimersPlaced s
  tickets : (s.parks.list.map (·.ticket)).Nodup
  listed : ∀ e, e ∈ s.parks.list ↔ (s.ctx e.ctx).site = .ticket e.ticket

theorem site_eq_nowhere {x : Context} : x.site = .nowhere ↔ x.place = .free := by
  unfold Context.site; cases x.place <;> simp

theorem site_eq_lane {x : Context} {l : LaneNo} :
    x.site = .lane l ↔ ∃ a, x.place = .attached a ∧ a.lane = l := by
  unfold Context.site; cases x.place <;> simp

theorem site_eq_ticket {x : Context} {n : Nat} :
    x.site = .ticket n ↔ ∃ p, x.place = .parked p ∧ p.ticket = n := by
  unfold Context.site; cases x.place <;> simp

/-- In a list whose images under `f` are distinct, an image belongs to one element. -/
theorem eq_of_nodup_map {α β : Type} {f : α → β} {L : List α} (h : (L.map f).Nodup) {a b : α} (ha : a ∈ L)
    (hb : b ∈ L) (e : f a = f b) : a = b := by
  induction L with
  | nil => cases ha
  | cons x L ih =>
    rw [List.map_cons, List.nodup_cons] at h
    obtain ⟨hx, hnd⟩ := h
    rcases List.mem_cons.1 ha with rfl | ha' <;> rcases List.mem_cons.1 hb with rfl | hb'
    · rfl
    · exact absurd (List.mem_map.2 ⟨b, hb', e.symm⟩) hx
    · exact absurd (List.mem_map.2 ⟨a, ha', e⟩) hx
    · exact ih hnd ha' hb'

/-- Entries of the park list with one context have one ticket, so distinct tickets make distinct contexts. -/
theorem BasketsAgree.parked_nodup {s : State} (h : BasketsAgree s) : (s.parks.list.map (·.ctx)).Nodup := by
  refine List.pairwise_map.2 ((List.pairwise_map.1 h.tickets).imp_of_mem fun {e d} he hd hne hc => hne ?_)
  have he := (h.listed e).1 he
  have hd := (h.listed d).1 hd
  rw [hc, hd] at he
  exact (Site.ticket.inj he).symm

theorem basketsSound_iff (s : State) : BasketsSound s ↔ BasketsAgree s := by
  constructor
  · rintro ⟨hl, hc, hb, hs, hi, ht, -, he, hp⟩
    refine ⟨fun l c => ⟨fun h => site_eq_lane.2 (hl l c h), fun h => ?_⟩, fun l => ?_, fun l c h => ?_, hi, ht,
      fun e => ⟨fun h => site_eq_ticket.2 (he e h), fun h => ?_⟩⟩
    · obtain ⟨a, ha, rfl⟩ := site_eq_lane.1 h
      exact hc c a ha
    · rw [Bool.eq_iff_iff, hb l, Option.isSome_iff_ne_none]
    · obtain ⟨st, hst, rfl⟩ := Option.map_eq_some_iff.1 h
      exact hs l st hst
    · obtain ⟨p, hp', ht'⟩ := site_eq_ticket.1 h
      have := hp e.ctx p hp'
      rwa [ht'] at this
  · intro h
    refine ⟨fun l c hl => site_eq_lane.1 ((h.named l c).1 hl),
      fun c a ha => (h.named _ c).2 (site_eq_lane.2 ⟨a, ha, rfl⟩),
      fun l => by rw [h.holds, Option.isSome_iff_ne_none],
      fun l st hs => h.settles l st.ctx (by simp [State.streamCtx, hs]), h.timers, h.tickets, h.parked_nodup,
      fun e he => site_eq_ticket.1 ((h.listed e).1 he),
      fun c p hp => (h.listed ⟨p.ticket, c⟩).2 (site_eq_ticket.2 ⟨p, hp, rfl⟩)⟩

/-- A lane in one of the two states in which its idle timer may run (R158). -/
def Lane.mayIdle (x : Lane) : Prop := x.state = .opened ∨ x.state = .totalled

/-- A lane without a basket settles nothing, and its context is none. -/
theorem BasketsAgree.ctx_none {s : State} (h : BasketsAgree s) {l : LaneNo}
    (hl : (s.lane l).state.holdsBasket = false) : (s.lane l).ctx = none := by
  rw [h.holds] at hl; simpa using hl

/-- A lane that is not SETTLING has no stream (R148). -/
theorem BasketsAgree.no_stream {s : State} (h : BasketsAgree s) {l : LaneNo} (hl : (s.lane l).state ≠ .settling) :
    s.streamCtx l = none := by
  cases hs : s.streamCtx l with
  | none => rfl
  | some c => exact absurd (h.settles l c hs).1 hl

/-! ### Operations that move no basket -/

/-- A lane record keeps its basket: same context, still with or without a basket, SETTLING as before, and an idle
timer only where R158 lets one run. -/
structure LaneKept (x y : Lane) : Prop where
  ctx : y.ctx = x.ctx
  holds : y.state.holdsBasket = x.state.holdsBasket
  settling : y.state = .settling ↔ x.state = .settling
  timer : (x.idleTimer ≠ none → x.mayIdle) → y.idleTimer ≠ none → y.mayIdle

theorem LaneKept.refl (x : Lane) : LaneKept x x := ⟨rfl, rfl, .rfl, id⟩

theorem LaneKept.trans {x y z : Lane} (h : LaneKept x y) (h' : LaneKept y z) : LaneKept x z :=
  ⟨h'.ctx.trans h.ctx, h'.holds.trans h.holds, h'.settling.trans h.settling, fun hx => h'.timer (h.timer hx)⟩

/-- A record that differs in neither context, state nor idle timer. -/
theorem LaneKept.of_eq {x y : Lane} (hc : y.ctx = x.ctx) (hs : y.state = x.state) (ht : y.idleTimer = x.idleTimer) :
    LaneKept x y := by
  refine ⟨hc, by rw [hs], by rw [hs], fun h h' => ?_⟩
  rw [ht] at h'
  unfold Lane.mayIdle
  rw [hs]
  exact h h'

/-- A step between states with a basket that are not SETTLING. -/
theorem LaneKept.of_states {x y : Lane} (hc : y.ctx = x.ctx) (hx : x.mayIdle ∨ x.state = .quoting)
    (hy : y.mayIdle ∨ (y.state = .quoting ∧ y.idleTimer = none)) : LaneKept x y := by
  have hx' : x.state.holdsBasket = true ∧ x.state ≠ .settling := by
    rcases hx with (h | h) | h <;> rw [h] <;> decide
  have hy' : y.state.holdsBasket = true ∧ y.state ≠ .settling := by
    rcases hy with (h | h) | ⟨h, -⟩ <;> rw [h] <;> decide
  refine ⟨hc, by rw [hx'.1, hy'.1], iff_of_false hy'.2 hx'.2, fun _ ht => ?_⟩
  exact hy.resolve_right fun h => ht h.2

/-- A change of the state that moves no basket. -/
structure BasketsKept (s t : State) : Prop where
  lane : ∀ l, LaneKept (s.lane l) (t.lane l)
  site : ∀ c, (t.ctx c).site = (s.ctx c).site
  stream : ∀ l, t.streamCtx l = s.streamCtx l
  parks : t.parks.list = s.parks.list

theorem BasketsKept.refl (s : State) : BasketsKept s s := ⟨fun _ => .refl _, fun _ => rfl, fun _ => rfl, rfl⟩

theorem BasketsKept.trans {s t u : State} (h : BasketsKept s t) (h' : BasketsKept t u) : BasketsKept s u :=
  ⟨fun l => (h.lane l).trans (h'.lane l), fun c => (h'.site c).trans (h.site c),
    fun l => (h'.stream l).trans (h.stream l), h'.parks.trans h.parks⟩

theorem BasketsKept.agree {s t : State} (h : BasketsKept s t) (hs : BasketsAgree s) : BasketsAgree t := by
  refine ⟨fun l c => ?_, fun l => ?_, fun l c hst => ?_, fun l => (h.lane l).timer (hs.timers l), ?_, fun e => ?_⟩
  · rw [(h.lane l).ctx, h.site, hs.named]
  · rw [(h.lane l).holds, (h.lane l).ctx, hs.holds]
  · rw [(h.lane l).settling, (h.lane l).ctx]
    rw [h.stream] at hst
    exact hs.settles l c hst
  · rw [h.parks]; exact hs.tickets
  · rw [h.parks, h.site, hs.listed]

theorem streamCtx_congr {s t : State} (h : t.streams = s.streams) (l : LaneNo) : t.streamCtx l = s.streamCtx l := by
  simp only [State.streamCtx, stream_congr h]

/-- An operation that leaves the four tables alone moves no basket. -/
theorem BasketsKept.of_tables {s t : State} (hl : t.lanes = s.lanes) (hc : t.ctxs = s.ctxs)
    (hs : t.streams = s.streams) (hp : t.parks = s.parks) : BasketsKept s t :=
  ⟨fun l => by rw [lane_congr hl]; exact .refl _, fun c => by rw [ctx_congr hc], streamCtx_congr hs, by rw [hp]⟩

/-- The law is about the four tables only. -/
theorem BasketsAgree.of_tables {s t : State} (h : BasketsAgree s) (hl : t.lanes = s.lanes) (hc : t.ctxs = s.ctxs)
    (hs : t.streams = s.streams) (hp : t.parks = s.parks) : BasketsAgree t :=
  (BasketsKept.of_tables hl hc hs hp).agree h

/-- A write of a lane record that keeps its basket. -/
theorem setLane_kept {s : State} {l : LaneNo} {x : Lane} (h : LaneKept (s.lane l) x) :
    BasketsKept s (s.setLane l x) := by
  refine ⟨fun m => ?_, fun c => by rw [ctx_congr (setLane_ctxs ..)], streamCtx_congr (setLane_streams ..), rfl⟩
  rw [lane_setLane]
  split
  · next e => exact e ▸ h
  · exact .refl _

/-- A write of a context that leaves it where it is. -/
theorem setCtx_kept {s : State} {c : CtxNo} {x : Context} (h : x.site = (s.ctx c).site) :
    BasketsKept s (s.setCtx c x) := by
  refine ⟨fun m => by rw [lane_congr (setCtx_lanes ..)]; exact .refl _, fun d => ?_,
    streamCtx_congr (setCtx_streams ..), rfl⟩
  rw [ctx_setCtx]
  split
  · next e => exact e ▸ h
  · rfl

/-- A revision increase may take a lane from TOTALLED to OPEN (R7), which is no move. -/
theorem overtaken_kept (x : Lane) : LaneKept x x.overtaken := by
  by_cases h : x.state = .totalled
  · exact .of_states rfl (.inl (.inr h)) (.inl (.inl (by simp [Lane.overtaken, h])))
  · exact .of_eq rfl (by simp [Lane.overtaken, h]) rfl

theorem bumpRevision_kept (c : CtxNo) (s : State) : BasketsKept s (bumpRevision c s) := by
  have hc : BasketsKept s (s.setCtx c (s.ctx c).bumped) := setCtx_kept rfl
  unfold bumpRevision
  split
  · exact hc.trans (setLane_kept (overtaken_kept _))
  · exact hc

theorem bumpAll_kept (cs : List CtxNo) (s : State) :
    BasketsKept s (cs.foldl (fun s c => bumpRevision c s) s) := by
  induction cs generalizing s with
  | nil => exact .refl _
  | cons c cs ih => exact (bumpRevision_kept c s).trans (ih _)

theorem raise_kept (c : CondClass) (u : Detail → Detail) (s : State) : BasketsKept s (raise c u s) :=
  .of_tables (by simp) (by simp) (by simp) (by simp)

theorem settleClaims_kept (s : State) : BasketsKept s (settleClaims s) :=
  .of_tables (by simp) (by simp) (by simp) (by simp)

theorem cutRule_kept (id : Nat) (s : State) : BasketsKept s (cutRule id s).1 := by
  unfold cutRule
  split
  · exact .refl _
  · dsimp only
    split
    · exact .refl _
    · refine .trans ?_ (raise_kept ..)
      refine .trans ?_ (bumpAll_kept _ _)
      exact .of_tables rfl rfl rfl rfl

/-- A lane's idle timer started in OPEN or TOTALLED. -/
theorem startIdle_kept {l : LaneNo} {s : State} (n : Nat) (h : (s.lane l).mayIdle) :
    BasketsKept s (startIdle n l s) := by
  unfold startIdle
  split <;> exact setLane_kept (.of_states rfl (.inl h) (.inl h))

theorem touchIdle_kept (l : LaneNo) (s : State) : BasketsKept s (touchIdle l s) := by
  by_cases h : (s.lane l).mayIdle
  · have e : touchIdle l s = startIdle 0 l s := by
      unfold touchIdle
      rcases h with h | h <;> rw [h]
    exact e ▸ startIdle_kept 0 h
  · rw [touchIdle_off (fun e => h (.inl e)) (fun e => h (.inr e))]
    exact .refl _

theorem leaveWaiting_kept (l : LaneNo) (s : State) : BasketsKept s (leaveWaiting l s) :=
  (setLane_kept (x := { s.lane l with passOver := 0 }) (.of_eq rfl rfl rfl)).trans (.of_tables rfl rfl rfl rfl)

theorem touchReservation_kept (l : LaneNo) (s : State) : BasketsKept s (touchReservation l s) :=
  .of_tables (by simp) (by simp) (by simp) (by simp)

theorem laneTaken_kept (f : Frame) (l : LaneNo) (s : State) : BasketsKept s (laneTaken f l s) := by
  have h : BasketsKept s (removeFrame .pool f (reserveSlot (useSlot .laneTake s))) :=
    .of_tables (by simp) (by simp) (by simp) (by simp)
  exact (h.trans (touchIdle_kept l _)).trans (touchReservation_kept l _)

theorem bulkTaken_kept (f : Frame) (s : State) : BasketsKept s (bulkTaken f s) :=
  .of_tables (by simp) (by simp) (by simp) (by simp)

theorem answerLane_kept (k : Byte) (r : Req) (l : LaneNo) (x : State × Answer) :
    BasketsKept x.1 (answerLane k r l x) := by
  unfold answerLane
  split
  · exact .of_tables rfl rfl rfl rfl
  · exact .refl _

theorem answerBulk_kept (k : Byte) (r : Req) (x : State × Answer) : BasketsKept x.1 (answerBulk k r x) := by
  unfold answerBulk
  split
  · exact .of_tables rfl rfl rfl rfl
  · exact .refl _

/-! ### A basket comes to a lane, leaves it, is listed and is taken off the list -/

/-- The record a lane has without a basket, as far as the law goes. -/
structure LaneEmpty (x : Lane) : Prop where
  ctx : x.ctx = none
  state : x.state.holdsBasket = false
  timer : x.idleTimer = none

/-- A basket leaves its lane, and its context is freed (R19, R20, R151). -/
theorem BasketsAgree.leave {s t : State} {l : LaneNo} {c : CtxNo} (h : BasketsAgree s)
    (hl : (s.lane l).ctx = some c) (hle : LaneEmpty (t.lane l)) (hls : t.streamCtx l = none)
    (hlo : ∀ m, m ≠ l → LaneKept (s.lane m) (t.lane m)) (hso : ∀ m, m ≠ l → t.streamCtx m = s.streamCtx m)
    (hc : (t.ctx c).site = .nowhere) (hco : ∀ d, d ≠ c → (t.ctx d).site = (s.ctx d).site)
    (hp : t.parks.list = s.parks.list) : BasketsAgree t := by
  have hcl := (h.named l c).1 hl
  refine ⟨fun m d => ?_, fun m => ?_, fun m d hst => ?_, fun m => ?_, by rw [hp]; exact h.tickets, fun e => ?_⟩
  · by_cases hm : m = l
    · subst hm
      by_cases hd : d = c
      · simp [hle.ctx, hd, hc]
      · rw [hle.ctx, hco d hd, ← h.named, hl]
        simp [Ne.symm hd]
    · rw [(hlo m hm).ctx, h.named]
      by_cases hd : d = c
      · simp [hd, hc, hcl, Ne.symm hm]
      · rw [hco d hd]
  · by_cases hm : m = l
    · subst hm; rw [hle.state, hle.ctx]; rfl
    · rw [(hlo m hm).holds, (hlo m hm).ctx, h.holds]
  · have hm : m ≠ l := by rintro rfl; simp [hls] at hst
    rw [(hlo m hm).settling, (hlo m hm).ctx]
    exact h.settles m d (hso m hm ▸ hst)
  · by_cases hm : m = l
    · subst hm; exact fun ht => absurd hle.timer ht
    · exact (hlo m hm).timer (h.timers m)
  · rw [hp, h.listed]
    by_cases hd : e.ctx = c
    · simp [hd, hc, hcl]
    · rw [hco _ hd]

/-- A basket comes to a lane without one, in a context that was nowhere (R17). -/
theorem BasketsAgree.come {s t : State} {l : LaneNo} {c : CtxNo} (h : BasketsAgree s)
    (hl : (s.lane l).state.holdsBasket = false) (hc : (s.ctx c).site = .nowhere)
    (hlc : (t.lane l).ctx = some c) (hlt : (t.lane l).state = .opened)
    (hlo : ∀ m, m ≠ l → LaneKept (s.lane m) (t.lane m)) (hs : ∀ m, t.streamCtx m = s.streamCtx m)
    (hct : (t.ctx c).site = .lane l) (hco : ∀ d, d ≠ c → (t.ctx d).site = (s.ctx d).site)
    (hp : t.parks.list = s.parks.list) : BasketsAgree t := by
  have hn := h.ctx_none hl
  refine ⟨fun m d => ?_, fun m => ?_, fun m d hst => ?_, fun m => ?_, by rw [hp]; exact h.tickets, fun e => ?_⟩
  · by_cases hm : m = l
    · subst hm
      by_cases hd : d = c
      · simp [hlc, hd, hct]
      · rw [hlc, hco d hd, ← h.named, hn]
        simp [Ne.symm hd]
    · rw [(hlo m hm).ctx, h.named]
      by_cases hd : d = c
      · simp [hd, hc, hct, Ne.symm hm]
      · rw [hco d hd]
  · by_cases hm : m = l
    · subst hm; rw [hlt, hlc]; rfl
    · rw [(hlo m hm).holds, (hlo m hm).ctx, h.holds]
  · rw [hs] at hst
    have hm : m ≠ l := by
      rintro rfl
      have := (h.settles m d hst).2
      simp [hn] at this
    rw [(hlo m hm).settling, (hlo m hm).ctx]
    exact h.settles m d hst
  · by_cases hm : m = l
    · subst hm; exact fun _ => .inl hlt
    · exact (hlo m hm).timer (h.timers m)
  · rw [hp, h.listed]
    by_cases hd : e.ctx = c
    · simp [hd, hc, hct]
    · rw [hco _ hd]

/-- A context that was nowhere is parked under an unused ticket (R153). -/
theorem BasketsAgree.list {s t : State} {c : CtxNo} {n : Nat} (h : BasketsAgree s) (hc : (s.ctx c).site = .nowhere)
    (hn : ticketUsed s n = false) (hl : ∀ m, LaneKept (s.lane m) (t.lane m))
    (hs : ∀ m, t.streamCtx m = s.streamCtx m) (hct : (t.ctx c).site = .ticket n)
    (hco : ∀ d, d ≠ c → (t.ctx d).site = (s.ctx d).site)
    (hp : t.parks.list = s.parks.list ++ [{ ticket := n, ctx := c }]) : BasketsAgree t := by
  have hn : ∀ e ∈ s.parks.list, e.ticket ≠ n := by simpa [ticketUsed] using hn
  refine ⟨fun m d => ?_, fun m => ?_, fun m d hst => ?_, fun m => (hl m).timer (h.timers m), ?_, fun e => ?_⟩
  · rw [(hl m).ctx, h.named]
    by_cases hd : d = c
    · simp [hd, hc, hct]
    · rw [hco d hd]
  · rw [(hl m).holds, (hl m).ctx, h.holds]
  · rw [(hl m).settling, (hl m).ctx]
    exact h.settles m d (hs m ▸ hst)
  · rw [hp, List.map_append]
    refine List.nodup_append.2 ⟨h.tickets, List.pairwise_singleton .., fun a ha b hb => ?_⟩
    obtain ⟨e, he, rfl⟩ := List.mem_map.1 ha
    simp only [List.map_cons, List.map_nil, List.mem_singleton] at hb
    exact hb ▸ hn e he
  · rw [hp, List.mem_append, h.listed, List.mem_singleton]
    obtain ⟨m, d⟩ := e
    by_cases hd : d = c
    · subst hd; simp [hc, hct, eq_comm]
    · rw [hco d hd]; simp [hd]

/-- A parked context is taken off the park list and is nowhere (R155, R156). -/
theorem BasketsAgree.unlist {s t : State} {c : CtxNo} {n : Nat} (h : BasketsAgree s) (hc : (s.ctx c).site = .ticket n)
    (hl : ∀ m, LaneKept (s.lane m) (t.lane m)) (hs : ∀ m, t.streamCtx m = s.streamCtx m)
    (hct : (t.ctx c).site = .nowhere) (hco : ∀ d, d ≠ c → (t.ctx d).site = (s.ctx d).site)
    (hp : t.parks.list = s.parks.list.filter (·.ticket != n)) : BasketsAgree t := by
  refine ⟨fun m d => ?_, fun m => ?_, fun m d hst => ?_, fun m => (hl m).timer (h.timers m), ?_, fun e => ?_⟩
  · rw [(hl m).ctx, h.named]
    by_cases hd : d = c
    · simp [hd, hc, hct]
    · rw [hco d hd]
  · rw [(hl m).holds, (hl m).ctx, h.holds]
  · rw [(hl m).settling, (hl m).ctx]
    exact h.settles m d (hs m ▸ hst)
  · rw [hp]
    exact h.tickets.sublist (List.filter_sublist.map _)
  · have hm : { ticket := n, ctx := c } ∈ s.parks.list := (h.listed ⟨n, c⟩).2 hc
    rw [hp, List.mem_filter, h.listed]
    by_cases hd : e.ctx = c
    · rw [hd, hc, hct, Site.ticket.injEq]; simp [Eq.comm (a := n)]
    · rw [hco _ hd, ← h.listed]
      refine ⟨And.left, fun he => ⟨he, ?_⟩⟩
      have : e.ticket ≠ n := fun ht => hd (congrArg ParkEntry.ctx (eq_of_nodup_map h.tickets he hm ht))
      simpa using this

end Sys2Proof.Machine

/-! Every command keeps lanes, contexts, streams and the park list in agreement (R12, R14, R148, R153): each shared
operation and each body once, and the step by the command at its front. -/

namespace Sys2Proof.Machine

/-! ### The lanes a basket leaves and comes to -/

/-- A lane whose basket has left it, and no other lane (R12, R136). -/
theorem clearLane_lane (l m : LaneNo) (s : State) :
    (clearLane l s).lane m = if m = l then vacated (s.lane l) else s.lane m := by
  have e : ∀ u : State, (leaveWaiting l u).lane m =
      (u.setLane l { u.lane l with passOver := 0 }).lane m := fun u => rfl
  unfold clearLane
  rw [e, lane_setLane]
  split
  · simp [vacated]
  · next h => rw [lane_setLane_ne _ _ h]

theorem vacated_empty (x : Lane) : LaneEmpty (vacated x) := ⟨rfl, rfl, rfl⟩

@[simp] theorem ctx_freeCtx_same (c : CtxNo) (s : State) : (freeCtx c s).ctx c = (s.ctx c).freed :=
  ctx_setCtx_same ..
theorem ctx_freeCtx_ne {c d : CtxNo} (s : State) (h : d ≠ c) : (freeCtx c s).ctx d = s.ctx d := ctx_setCtx_ne s _ h

/-- The basket of a lane without a stream is given up: the context is freed and the lane cleared. -/
theorem BasketsAgree.vacate {s : State} {l : LaneNo} {c : CtxNo} (h : BasketsAgree s)
    (hl : (s.lane l).ctx = some c) (hs : s.streamCtx l = none) : BasketsAgree (clearLane l (freeCtx c s)) := by
  have hst : ∀ m, (clearLane l (freeCtx c s)).streamCtx m = s.streamCtx m := streamCtx_congr (by simp)
  have hc : ∀ d, (clearLane l (freeCtx c s)).ctx d = (freeCtx c s).ctx d := ctx_congr (by simp)
  refine h.leave hl ?_ (by rw [hst, hs]) (fun m hm => ?_) (fun m _ => hst m) (by rw [hc]; simp; rfl)
    (fun d hd => by rw [hc, ctx_freeCtx_ne s hd]) (by simp)
  · rw [clearLane_lane, if_pos rfl]; exact vacated_empty _
  · rw [clearLane_lane, if_neg hm, lane_congr (freeCtx_lanes ..)]; exact .refl _

/-- A stream record may go at any time (R148). -/
theorem BasketsAgree.dropStream {s : State} (h : BasketsAgree s) (l : LaneNo) :
    BasketsAgree (s.setStream l none) := by
  refine ⟨h.named, h.holds, fun m c hst => ?_, h.timers, h.tickets, h.listed⟩
  unfold State.streamCtx at hst
  rw [stream_setStream] at hst
  split at hst
  · simp at hst
  · exact h.settles m c hst

/-! ### Park tickets (R153) -/

/-- A ticket found in use has been preceded by used ones only. -/
theorem nextTicket_used {s : State} {fuel last : Nat} (h : ticketUsed s (nextTicket s fuel last) = true) :
    ∀ j, j ≤ fuel → ticketUsed s ((last + j) % 255 + 1) = true := by
  induction fuel generalizing last with
  | zero => intro j hj; obtain rfl : j = 0 := by omega
            exact h
  | succ n ih =>
    intro j hj
    unfold nextTicket at h
    dsimp only at h
    split at h
    · next hu =>
      cases j with
      | zero => exact hu
      | succ j =>
        have := ih h j (by omega)
        rwa [show (last % 255 + 1 + j) % 255 = (last + (j + 1)) % 255 by omega] at this
    · next hu => exact absurd h hu

/-- With at most 12 parked contexts, one of 14 tickets is free. -/
theorem BasketsAgree.ticket_free {s : State} (h : BasketsAgree s) (last : Nat) :
    ticketUsed s (nextTicket s 13 last) = false := by
  rw [← Bool.not_eq_true]
  intro hu
  have hall := nextTicket_used hu
  have hsub : (List.range 14).map (fun j => (last + j) % 255 + 1) ⊆ s.parks.list.map (·.ticket) := by
    intro n hn
    obtain ⟨j, hj, rfl⟩ := List.mem_map.1 hn
    have := hall j (by rw [List.mem_range] at hj; omega)
    simpa [ticketUsed] using this
  have hnd : ((List.range 14).map (fun j => (last + j) % 255 + 1)).Nodup := by
    refine List.pairwise_map.2 (List.nodup_range.imp_of_mem fun {i j} hi hj hne e => hne ?_)
    rw [List.mem_range] at hi hj
    omega
  have h14 := hnd.length_le_of_subset hsub
  have h12 := h.parked_nodup.length_le_of_subset (l₂ := List.finRange 12) fun c _ => List.mem_finRange c
  rw [List.length_map, List.length_map, List.length_range] at h14
  rw [List.length_map, List.length_finRange] at h12
  omega

/-! ### Parking, recall, opening and settlement -/

/-- What PARK does before the context is parked (R154): the reservation of the context goes, with a revision increase
when it had one, and its bank pin. -/
def parkReleased (c : CtxNo) (s : State) : State :=
  releasePinOf c (if (s.reservation c).isSome then bumpRevision c (removeReservation c s) else s)

/-- The context parked under a ticket from now on, and listed (R153). -/
def parkUnder (c : CtxNo) (n : Nat) (s : State) : State :=
  { s.setCtx c { s.ctx c with
      place := .parked { ticket := n, since := s.now, expires := s.after (s.config.parkLifetime * 1000) }
      quote := none, wanted := false } with
    parks := { list := s.parks.list ++ [{ ticket := n, ctx := c }], lastTicket := n } }

theorem parkBasket_state (l : LaneNo) (c : CtxNo) (s : State) :
    (parkBasket l c s).1 = clearLane l (parkUnder c
      (nextTicket (parkReleased c s) 13 (parkReleased c s).parks.lastTicket) (parkReleased c s)) := by
  unfold parkBasket parkReleased
  cases s.reservation c <;> rfl

theorem parkReleased_kept (c : CtxNo) (s : State) : BasketsKept s (parkReleased c s) := by
  have hp : ∀ u, BasketsKept u (releasePinOf c u) := fun u =>
    .of_tables (by simp) (by simp) (by simp) (by simp)
  unfold parkReleased
  refine .trans ?_ (hp _)
  split
  · exact .trans (t := removeReservation c s) (.of_tables rfl rfl rfl rfl) (bumpRevision_kept c _)
  · exact .refl _

theorem parkUnder_ctx (c d : CtxNo) (n : Nat) (s : State) :
    (parkUnder c n s).ctx d = if d = c then { s.ctx c with
      place := .parked { ticket := n, since := s.now, expires := s.after (s.config.parkLifetime * 1000) }
      quote := none, wanted := false } else s.ctx d := ctx_setCtx s c d _

/-- A basket is parked from a lane in which nothing is settled (R154, R160). -/
theorem BasketsAgree.park {s : State} {l : LaneNo} {c : CtxNo} (h : BasketsAgree s)
    (hl : (s.lane l).ctx = some c) (hs : (s.lane l).state ≠ .settling) : BasketsAgree (parkBasket l c s).1 := by
  rw [parkBasket_state]
  have hk := parkReleased_kept c s
  generalize parkReleased c s = v at hk ⊢
  have hv := hk.agree h
  have hlv : (v.lane l).ctx = some c := by rw [(hk.lane l).ctx, hl]
  have hsv : (v.lane l).state ≠ .settling := fun e => hs ((hk.lane l).settling.1 e)
  refine (hv.vacate hlv (hv.no_stream hsv)).list (c := c) (n := nextTicket v 13 v.parks.lastTicket) ?_ ?_
    (fun m => ?_) (fun m => ?_) ?_ (fun d hd => ?_) ?_
  · rw [ctx_congr (clearLane_ctxs ..), ctx_freeCtx_same]; rfl
  · simpa [ticketUsed] using hv.ticket_free v.parks.lastTicket
  · rw [clearLane_lane, clearLane_lane]
    exact .refl _
  · rw [streamCtx_congr (clearLane_streams ..), streamCtx_congr (clearLane_streams ..)]; rfl
  · rw [ctx_congr (clearLane_ctxs ..), parkUnder_ctx, if_pos rfl]; rfl
  · rw [ctx_congr (clearLane_ctxs ..), ctx_congr (clearLane_ctxs ..), ctx_freeCtx_ne _ hd, parkUnder_ctx, if_neg hd]
  · simp [parkUnder]

/-- A revision increase leaves a lane in OPEN or TOTALLED there. -/
theorem bumpRevision_mayIdle (c : CtxNo) {s : State} {l : LaneNo} (h : (s.lane l).mayIdle) :
    ((bumpRevision c s).lane l).mayIdle := by
  unfold bumpRevision
  split
  · rw [lane_setLane]
    split
    · next e =>
      subst e
      rcases h with h | h
      · exact .inl (by rw [lane_congr (setCtx_lanes ..)]; simp [Lane.overtaken, h])
      · exact .inl (by rw [lane_congr (setCtx_lanes ..)]; simp [Lane.overtaken, h])
    · exact h
  · exact h

/-- A context that is nowhere is attached to a lane without a basket, as OPEN_BASKET and RECALL do it (R17, R157). -/
theorem BasketsAgree.open {s : State} {l : LaneNo} {c : CtxNo} (h : BasketsAgree s)
    (hl : (s.lane l).state.holdsBasket = false) (hc : (s.ctx c).site = .nowhere) {x : Context} {y : Lane}
    (hx : x.site = .lane l) (hy : y.ctx = some c) (hy' : y.state = .opened) (b : BankNo) :
    BasketsAgree ((pinBank b (s.setCtx c x)).setLane l y) := by
  refine h.come hl hc (by simp [hy]) (by simp [hy']) (fun m hm => ?_) (streamCtx_congr (by simp)) ?_ (fun d hd => ?_)
    (by simp)
  · rw [lane_setLane_ne _ _ hm, lane_congr (s := s) (by simp)]; exact .refl _
  · rw [ctx_congr (s := s.setCtx c x) (by simp), ctx_setCtx_same, hx]
  · rw [ctx_congr (s := s.setCtx c x) (by simp), ctx_setCtx_ne _ _ hd]

theorem openIn_agree {s : State} {l : LaneNo} {c : CtxNo} (h : BasketsAgree s)
    (hl : (s.lane l).state.holdsBasket = false) (hc : (s.ctx c).site = .nowhere) (b : BankNo) :
    BasketsAgree (openIn l c b s).1 := by
  refine (startIdle_kept 0 ?_).agree (h.open hl hc (x := (s.ctx c).allocated _) rfl rfl rfl b)
  exact .inl (by simp)

theorem recallTo_agree {s : State} {l : LaneNo} {c : CtxNo} {n : Nat} (h : BasketsAgree s)
    (hl : (s.lane l).state.holdsBasket = false) (hc : (s.ctx c).site = .ticket n) (b : BankNo) :
    BasketsAgree (recallTo l c n b s).1 := by
  have hu : BasketsAgree ((unlist n s).setCtx c Context.initial) := by
    refine h.unlist hc (fun m => .refl _) (fun m => rfl) (by simp; rfl) (fun d hd => ?_) rfl
    rw [ctx_setCtx_ne _ _ hd]; rfl
  have hset : ∀ x : Context, ((unlist n s).setCtx c Context.initial).setCtx c x = (unlist n s).setCtx c x := by
    intro x
    simp [State.setCtx]
  unfold recallTo
  dsimp only
  refine (startIdle_kept 0 (bumpRevision_mayIdle c ?_)).agree ((bumpRevision_kept c _).agree ?_)
  · exact .inl (by simp)
  · rw [← hset]
    exact hu.open hl (by simp; rfl) rfl rfl rfl b

/-- A stream begins on the lane of its context (R148). -/
theorem BasketsAgree.settling {s t : State} {l : LaneNo} {c : CtxNo} (h : BasketsAgree s)
    (hl : (s.lane l).ctx = some c) (hlc : (t.lane l).ctx = some c) (hls : (t.lane l).state = .settling)
    (hlt : (t.lane l).idleTimer = none) (hlo : ∀ m, m ≠ l → t.lane m = s.lane m)
    (hs : t.streamCtx l = some c) (hso : ∀ m, m ≠ l → t.streamCtx m = s.streamCtx m)
    (hc : ∀ d, (t.ctx d).site = (s.ctx d).site) (hp : t.parks.list = s.parks.list) : BasketsAgree t := by
  refine ⟨fun m d => ?_, fun m => ?_, fun m d hst => ?_, fun m => ?_, by rw [hp]; exact h.tickets,
    fun e => by rw [hp, h.listed, hc]⟩
  · rw [hc, ← h.named]
    by_cases hm : m = l
    · subst hm; rw [hlc, hl]
    · rw [hlo m hm]
  · by_cases hm : m = l
    · subst hm; rw [hls, hlc]; rfl
    · rw [hlo m hm, h.holds]
  · by_cases hm : m = l
    · subst hm; rw [hls, hlc]; exact ⟨rfl, hs ▸ hst⟩
    · rw [hlo m hm]; exact h.settles m d (hso m hm ▸ hst)
  · by_cases hm : m = l
    · subst hm; exact fun ht => absurd hlt ht
    · rw [hlo m hm]; exact h.timers m

theorem convertPoints_kept (c : CtxNo) (used : Nat) (s : State) : BasketsKept s (convertPoints c used s) := by
  unfold convertPoints
  split
  · exact .refl _
  · refine .trans ?_ (setCtx_kept rfl)
    exact .of_tables rfl rfl rfl rfl

theorem convertPoints_lanes (c : CtxNo) (used : Nat) (s : State) : (convertPoints c used s).lanes = s.lanes := by
  unfold convertPoints; split <;> rfl

theorem stopIdle_lane (l m : LaneNo) (s : State) : (stopIdle l s).lane m =
    if m = l then { s.lane l with idleStage := 0, idleTimer := none } else s.lane m := lane_setLane s l m _

theorem startStream_lane (tag : Byte) (l m : LaneNo) (c : CtxNo) (head : List Byte) (n : Nat) (s : State) :
    (startStream tag l c head n s).lane m = s.lane m := rfl

theorem startStream_ctx (tag : Byte) (l : LaneNo) (c d : CtxNo) (head : List Byte) (n : Nat) (s : State) :
    (startStream tag l c head n s).ctx d = s.ctx d := rfl

theorem startStream_streamCtx (tag : Byte) (l m : LaneNo) (c : CtxNo) (head : List Byte) (n : Nat) (s : State) :
    (startStream tag l c head n s).streamCtx m = if m = l then some c else s.streamCtx m := by
  unfold startStream State.streamCtx
  rw [stream_congr (placeReserved_streams ..), stream_setStream]
  split <;> rfl

/-- The state in which FINALIZE leaves the basket before its stream begins (R147). -/
theorem settle_agree {s : State} {l : LaneNo} {c : CtxNo} (tag : Byte) (q : Quote) (h : BasketsAgree s)
    (hl : (s.lane l).ctx = some c) : BasketsAgree (settle tag l c q s) := by
  have hk : BasketsKept s (convertPoints c q.pointsUsed (spendClaimsOf c s)) :=
    .trans (.of_tables (by simp) (by simp) (by simp) (by simp)) (convertPoints_kept c _ (spendClaimsOf c s))
  have hlane : ∀ m, (convertPoints c q.pointsUsed (spendClaimsOf c s)).lane m = s.lane m :=
    lane_congr (by rw [convertPoints_lanes]; simp)
  unfold settle
  dsimp only
  generalize convertPoints c q.pointsUsed (spendClaimsOf c s) = u at hk hlane ⊢
  refine h.settling hl ?_ ?_ ?_ (fun m hm => ?_) ?_ (fun m hm => ?_) (fun d => ?_) hk.parks
  · simp [startStream_lane, stopIdle_lane, hlane, hl]
  · simp [startStream_lane, stopIdle_lane]
  · simp [startStream_lane, stopIdle_lane]
  · rw [startStream_lane, stopIdle_lane, if_neg hm, lane_setLane_ne _ _ hm, hlane]
  · rw [startStream_streamCtx, if_pos rfl]
  · rw [startStream_streamCtx, if_neg hm, ← hk.stream]; rfl
  · rw [startStream_ctx, ← hk.site]; rfl

end Sys2Proof.Machine

/-! Every command keeps lanes, contexts, streams and the park list in agreement: the bodies of the requests, the steps
of the device, and the step by the command at its front. -/

namespace Sys2Proof.Machine

/-! ### Request bodies that move no basket -/

theorem onLine_kept {p : List Byte} {c : CtxNo} {body : Line → State → State × Answer} {s : State}
    (h : ∀ ln, BasketsKept s (body ln s).1) : BasketsKept s (onLine p c body s).1 := by
  unfold onLine
  split
  · exact .refl _
  · split
    · exact .refl _
    · exact h _

/-- An edit of a context with its revision increase (R7, R15). -/
theorem edit_kept {s : State} {c : CtxNo} {x : Context} (h : x.site = (s.ctx c).site) :
    BasketsKept s (bumpRevision c (s.setCtx c x)) := (setCtx_kept h).trans (bumpRevision_kept c _)

theorem changeLines_kept (c : CtxNo) (ls : List Line) (s : State) : BasketsKept s (changeLines c ls s) :=
  edit_kept (by rfl)

theorem addLineBody_kept (p : List Byte) (c : CtxNo) (s : State) : BasketsKept s (addLineBody p c s).1 := by
  unfold addLineBody
  split
  · exact .refl _
  · dsimp only
    split
    · exact .refl _
    · split
      · exact .refl _
      · exact edit_kept (by rfl)

theorem setQtyBody_kept (p : List Byte) (c : CtxNo) (ln : Line) (s : State) :
    BasketsKept s (setQtyBody p c ln s).1 := by
  unfold setQtyBody
  dsimp only
  split
  · split
    · exact .refl _
    · split
      · exact .refl _
      · exact changeLines_kept ..
  · exact .refl _

theorem voidLineBody_kept (c : CtxNo) (ln : Line) (s : State) : BasketsKept s (voidLineBody c ln s).1 :=
  changeLines_kept ..

theorem overrideBody_kept (p : List Byte) (c : CtxNo) (ln : Line) (s : State) :
    BasketsKept s (overrideBody p c ln s).1 := by
  unfold overrideBody
  split
  · exact .refl _
  · dsimp only
    split
    · exact .refl _
    · split
      · exact .refl _
      · split
        · exact .refl _
        · split
          · exact .refl _
          · split
            · exact .refl _
            · exact changeLines_kept ..

theorem clearOverrideBody_kept (c : CtxNo) (ln : Line) (s : State) : BasketsKept s (clearOverrideBody c ln s).1 :=
  changeLines_kept ..

theorem claimCoupon_kept (k : Coupon) (c : CtxNo) (s : State) : BasketsKept s (claimCoupon k c s).1 := by
  have hm : ∀ {u : State} {e}, makeClaim c k.serial s = some (u, e) → BasketsKept s u := by
    intro u e h
    unfold makeClaim at h
    dsimp only at h
    split at h
    · cases h; exact .refl _
    · split at h
      · cases h; exact .of_tables rfl rfl rfl rfl
      · split at h
        · cases h; exact .of_tables rfl rfl rfl rfl
        · cases h
  unfold claimCoupon
  split
  · exact .refl _
  · split
    · exact raise_kept ..
    · next h =>
      exact (hm h).trans (edit_kept (by rfl))

theorem presentCouponBody_kept (p : List Byte) (c : CtxNo) (s : State) :
    BasketsKept s (presentCouponBody p c s).1 := by
  unfold presentCouponBody
  split
  · exact .refl _
  · dsimp only
    split
    · exact .refl _
    · split
      · exact .refl _
      · exact claimCoupon_kept ..

theorem withdrawCouponBody_kept (p : List Byte) (c : CtxNo) (s : State) :
    BasketsKept s (withdrawCouponBody p c s).1 := by
  have hr : ∀ n, BasketsKept s (releaseSerial c n s) := by
    intro n
    unfold releaseSerial
    split
    · exact .refl _
    · exact .of_tables (by simp) (by simp) (by simp) (by simp)
  unfold withdrawCouponBody
  dsimp only
  split
  · exact .refl _
  · exact (hr _).trans (edit_kept (by rfl))

theorem dropOther_kept (c : CtxNo) (id : Nat) (s : State) : BasketsKept s (dropOther c id s) := by
  unfold dropOther
  split
  · split
    · exact .refl _
    · exact .of_tables rfl rfl rfl rfl
  · exact .refl _

theorem giveBalance_kept (c : CtxNo) (id balance : Nat) (s : State) :
    BasketsKept s (giveBalance c id balance s).1 := by
  unfold giveBalance
  split
  · exact .of_tables rfl rfl rfl rfl
  · refine .trans ?_ (cutRule_kept id _)
    exact .of_tables rfl rfl rfl rfl

theorem removeReservation_kept (c : CtxNo) (s : State) : BasketsKept s (removeReservation c s) :=
  .of_tables rfl rfl rfl rfl

theorem attachBody_kept (p : List Byte) (c : CtxNo) (s : State) : BasketsKept s (attachBody p c s).1 := by
  unfold attachBody
  split
  · exact .refl _
  · exact (removeReservation_kept c s).trans ((dropOther_kept c _ _).trans ((giveBalance_kept c _ _ _).trans
      (edit_kept (by rfl))))

theorem detachBody_kept (c : CtxNo) (s : State) : BasketsKept s (detachBody c s).1 := by
  unfold detachBody
  split
  · exact .refl _
  · next a _ =>
    exact .trans (t := dropReference a.id (removeReservation c s)) (.of_tables rfl rfl rfl rfl)
      (edit_kept (by rfl))

theorem redeemBody_kept (p : List Byte) (c : CtxNo) (s : State) : BasketsKept s (redeemBody p c s).1 := by
  unfold redeemBody
  dsimp only
  split
  · split
    · exact .refl _
    · next a _ =>
      split
      · exact .refl _
      · split
        · exact .refl _
        · exact .trans (t := addReservation c a.id (field p 0 4) (removeReservation c s)) (.of_tables rfl rfl rfl rfl)
            (bumpRevision_kept c _)
  · exact .refl _

theorem cancelRedeemBody_kept (c : CtxNo) (s : State) : BasketsKept s (cancelRedeemBody c s).1 := by
  unfold cancelRedeemBody
  split
  · exact .refl _
  · exact (removeReservation_kept c s).trans (bumpRevision_kept c _)

theorem site_withTracking (x : Context) (m : Tracking) : (x.withTracking m).site = x.site := by
  unfold Context.withTracking Context.site
  cases h : x.place <;> simp [h]

theorem setTrackingBody_kept (p : List Byte) (l : LaneNo) (c : CtxNo) (s : State) :
    BasketsKept s (setTrackingBody p l c s).1 := by
  unfold setTrackingBody
  split
  · exact .refl _
  · next m _ =>
    have hc : BasketsKept s (s.setCtx c ((s.ctx c).withTracking m)) := setCtx_kept (site_withTracking _ m)
    have hl := hc.trans (setLane_kept (l := l)
      (x := { (s.setCtx c ((s.ctx c).withTracking m)).lane l with tracking := m }) (.of_eq (by rfl) (by rfl) (by rfl)))
    dsimp only
    split
    · exact hl.trans (setCtx_kept (by rfl))
    · exact hl.trans (.trans (setCtx_kept (by rfl)) (.trans
        (setLane_kept (.of_eq (by rfl) (by rfl) (by rfl))) (leaveWaiting_kept l _)))

theorem totalBody_kept {tag : Byte} {l : LaneNo} {c : CtxNo} {s : State} (h : (s.lane l).mayIdle) :
    BasketsKept s (totalBody tag l c s).1 := by
  unfold totalBody
  split
  · exact setLane_kept (.of_states rfl (.inl h) (.inl (.inr rfl)))
  · refine .trans (t := s.setCtx c { s.ctx c with wanted := true }) (setCtx_kept (by rfl)) ?_
    generalize hu : s.setCtx c { s.ctx c with wanted := true } = u
    have hl : u.lane l = s.lane l := by rw [← hu]; rfl
    have e : ∀ y : Lane, stopIdle l (u.setLane l y) = u.setLane l { y with idleStage := 0, idleTimer := none } := by
      intro y; simp [stopIdle, State.setLane, State.lane, get_set_same]
    dsimp only
    rw [e]
    exact setLane_kept (.of_states rfl (.inl (hl ▸ h)) (.inr ⟨rfl, rfl⟩))

theorem queryBasketBody_kept (p : List Byte) (c : CtxNo) (s : State) : BasketsKept s (queryBasketBody p c s).1 := by
  unfold queryBasketBody
  dsimp only
  split <;> exact .refl _

/-! ### Request bodies that move a basket -/

theorem State.freeContext_free {s : State} {c : CtxNo} (h : s.freeContext = some c) : (s.ctx c).site = .nowhere := by
  have := List.find?_some h
  unfold Context.isFree at this
  rw [site_eq_nowhere]
  split at this
  · assumption
  · cases this

theorem openBody_agree {l : LaneNo} {s : State} (h : BasketsAgree s) (hl : (s.lane l).state.holdsBasket = false) :
    BasketsAgree (openBody l s).1 := by
  unfold openBody
  split
  · split
    · exact h
    · next hc =>
      split
      · exact openIn_agree h hl (State.freeContext_free hc) _
      · exact h
  · exact h

theorem recallBody_agree {p : List Byte} {l : LaneNo} {s : State} (h : BasketsAgree s)
    (hl : (s.lane l).state.holdsBasket = false) : BasketsAgree (recallBody p l s).1 := by
  unfold recallBody
  dsimp only
  split
  · split
    · exact h
    · split
      · exact h
      · next hc =>
        split
        · refine recallTo_agree h hl ?_ _
          obtain ⟨e, he, rfl⟩ := Option.map_eq_some_iff.1 hc
          have ht : e.ticket = field p 0 1 := by simpa using List.find?_some he
          rw [← ht]
          exact (h.listed e).1 (List.mem_of_find?_eq_some he)
        · exact h
  · exact h

theorem voidBasketBody_agree {l : LaneNo} {c : CtxNo} {s : State} (h : BasketsAgree s)
    (hc : (s.lane l).ctx = some c) (hs : (s.lane l).state ≠ .settling) :
    BasketsAgree (voidBasketBody l c s).1 := by
  have hk : BasketsKept s (giveBack c s) := by
    unfold giveBack
    exact .of_tables (by simp) (by simp) (by simp) (by simp)
  refine (hk.agree h).vacate (by rw [(hk.lane l).ctx, hc]) ?_
  rw [hk.stream]
  exact h.no_stream hs

theorem finalizeBody_agree {tag : Byte} {l : LaneNo} {c : CtxNo} {s : State} (h : BasketsAgree s)
    (hc : (s.lane l).ctx = some c) : BasketsAgree (finalizeBody tag l c s).1 := by
  unfold finalizeBody
  split
  · exact settle_agree tag _ h hc
  · exact h

/-! ### Device-level requests -/

/-- A device-level body that leaves the four tables alone. -/
theorem onStaging_kept {body : BankNo → State → State × Answer} {s : State}
    (h : ∀ b, BasketsKept s (body b s).1) : BasketsKept s (onStaging body s).1 := by
  unfold onStaging
  split
  · exact h _
  · exact .refl _

theorem withLength_kept {len : Nat} {r : Req} {body : State → State × Answer} {s : State}
    (h : BasketsKept s (body s).1) : BasketsKept s (withLength len r body s).1 := by
  unfold withLength
  split
  · exact h
  · exact .refl _

theorem setBank_kept (s : State) (b : BankNo) (x : Bank) : BasketsKept s (s.setBank b x) :=
  .of_tables rfl rfl rfl rfl

theorem updateServing_kept (s : State) : BasketsKept s (updateServing s) := by
  unfold updateServing
  split
  · exact .of_tables rfl rfl rfl rfl
  · exact .refl _

theorem bankBeginBody_kept (p : List Byte) (s : State) : BasketsKept s (bankBeginBody p s).1 := by
  unfold bankBeginBody
  dsimp only
  split
  · exact .refl _
  · split
    · exact setBank_kept ..
    · exact .refl _

theorem offerPutBody_kept (p : List Byte) (b : BankNo) (s : State) : BasketsKept s (offerPutBody p b s).1 := by
  unfold offerPutBody
  dsimp only
  split
  · split
    · exact .refl _
    · split
      · exact .refl _
      · exact setBank_kept ..
  · exact .refl _

theorem offersCloseBody_kept (p : List Byte) (b : BankNo) (s : State) : BasketsKept s (offersCloseBody p b s).1 := by
  unfold offersCloseBody
  dsimp only
  split
  · exact setBank_kept ..
  · exact .refl _

theorem schedulePutBody_kept (p : List Byte) (b : BankNo) (s : State) : BasketsKept s (schedulePutBody p b s).1 := by
  unfold schedulePutBody
  split
  · exact .refl _
  · exact setBank_kept ..

theorem commitBank_kept (b : BankNo) (s : State) : BasketsKept s (commitBank b s) := by
  have hr : BasketsKept s (replaceCurrent s) := by
    unfold replaceCurrent
    split
    · exact setBank_kept ..
    · exact .refl _
  exact hr.trans ((setBank_kept ..).trans (updateServing_kept _))

theorem bankCommitBody_kept (s : State) : BasketsKept s (bankCommitBody s).1 := by
  unfold bankCommitBody
  split
  · exact .refl _
  · split
    · exact .refl _
    · exact commitBank_kept ..

theorem authorityLoadBody_kept (p : List Byte) (s : State) : BasketsKept s (authorityLoadBody p s).1 := by
  unfold authorityLoadBody
  dsimp only
  split
  · split
    · exact .refl _
    · split
      · exact .refl _
      · exact .of_tables rfl rfl rfl rfl
  · exact .refl _

theorem authorityRemoveBody_kept (p : List Byte) (s : State) : BasketsKept s (authorityRemoveBody p s).1 := by
  unfold authorityRemoveBody
  dsimp only
  split
  · exact .refl _
  · split
    · exact .of_tables rfl rfl rfl rfl
    · exact .refl _

theorem accountBalanceBody_kept (p : List Byte) (s : State) : BasketsKept s (accountBalanceBody p s).1 := by
  unfold accountBalanceBody
  dsimp only
  split
  · exact .refl _
  · split
    · exact .refl _
    · refine .trans ?_ (cutRule_kept _ _)
      exact .of_tables rfl rfl rfl rfl

theorem queryAccountBody_state (p : List Byte) (s : State) : (queryAccountBody p s).1 = s := by
  unfold queryAccountBody
  dsimp only
  split
  · split <;> rfl
  · rfl

theorem queryClaimBody_state (p : List Byte) (s : State) : (queryClaimBody p s).1 = s := by
  unfold queryClaimBody
  dsimp only
  split <;> rfl

theorem statusBody_state (p : List Byte) (s : State) : (statusBody p s).1 = s := by
  unfold statusBody
  dsimp only
  split
  · rfl
  · split
    · rfl
    · split <;> rfl

theorem configureLanes_lane (s : State) (l : LaneNo) : (configureLanes s).lane l =
    (s.lane l).configured (s.laneEnabled l) s.config.trackingDefault := by
  show (Vector.ofFn fun l => (s.lane l).configured (s.laneEnabled l) s.config.trackingDefault)[(l : Nat)] = _
  rw [Vector.getElem_ofFn]

/-- With no basket on any lane, a new configuration moves none. -/
theorem configureLanes_kept {s : State} (h : ∀ l, (s.lane l).state.holdsBasket = false) :
    BasketsKept s (configureLanes s) := by
  refine ⟨fun l => ?_, fun _ => rfl, fun _ => rfl, rfl⟩
  have hs : ((s.lane l).configured (s.laneEnabled l) s.config.trackingDefault).state = .idle ∨
      ((s.lane l).configured (s.laneEnabled l) s.config.trackingDefault).state = .off := by
    unfold Lane.configured
    cases s.laneEnabled l
    · exact .inr rfl
    · exact .inl rfl
  have hx := h l
  rw [configureLanes_lane]
  refine ⟨rfl, ?_, iff_of_false ?_ ?_, fun ht ht' => ?_⟩
  · rw [hx]; rcases hs with e | e <;> rw [e] <;> rfl
  · rcases hs with e | e <;> rw [e] <;> decide
  · intro e; rw [e] at hx; cases hx
  · rcases ht ht' with e | e <;> (rw [e] at hx; cases hx)

theorem basketLanes_empty {s : State} (h : (basketLanes s).isEmpty = true) (l : LaneNo) :
    (s.lane l).state.holdsBasket = false := by
  unfold basketLanes at h
  rw [List.isEmpty_iff, List.filter_eq_nil_iff] at h
  simpa using h l (by revert l; decide)

theorem configureBody_kept (p : List Byte) (s : State) : BasketsKept s (configureBody p s).1 := by
  unfold configureBody
  split
  · next hb =>
    split
    · exact .refl _
    · refine .trans ?_ (configureLanes_kept fun l => basketLanes_empty hb l)
      exact .of_tables rfl rfl rfl rfl
  · exact .refl _

theorem dayOpenBody_kept (p : List Byte) (s : State) : BasketsKept s (dayOpenBody p s).1 := by
  unfold dayOpenBody
  dsimp only
  split
  · split
    · refine .trans ?_ (updateServing_kept _)
      exact .of_tables (by simp) (by simp) (by simp) (by simp)
    · exact .refl _
  · exact .refl _

theorem clearClass_kept (c : CondClass) (s : State) : BasketsKept s (clearClass c s) := by
  cases c <;> exact .of_tables rfl rfl rfl rfl

theorem clearClasses_kept (set : Nat) (s : State) : BasketsKept s (clearClasses set s) := by
  unfold clearClasses
  generalize allClasses = cs
  induction cs generalizing s with
  | nil => exact .refl _
  | cons c cs ih =>
    refine .trans ?_ (ih _)
    dsimp only
    split
    · exact clearClass_kept c s
    · exact .refl _

theorem clearConditionsBody_kept (p : List Byte) (s : State) : BasketsKept s (clearConditionsBody p s).1 := by
  unfold clearConditionsBody
  split
  · exact clearClasses_kept ..
  · exact .refl _

theorem setMaskBody_kept (p : List Byte) (s : State) : BasketsKept s (setMaskBody p s).1 := by
  unfold setMaskBody
  split
  · exact .of_tables (by simp) (by simp) (by simp) (by simp)
  · exact .refl _

end Sys2Proof.Machine

/-! Every command keeps lanes, contexts, streams and the park list in agreement: the requests with their takes, the
steps of the device and the resets, and the step by the command at its front. -/

namespace Sys2Proof.Machine

/-! ### Requests -/

/-- Every state a step answers with agrees. -/
def AnswersAgree (o : Out) : Prop := ∀ t, o = .next t → BasketsAgree t

theorem AnswersAgree.next {t : State} (h : BasketsAgree t) : AnswersAgree (.next t) := by
  rintro _ ⟨⟩; exact h

theorem whenLive_agree {f : State → State} {s : State} (h : BasketsAgree s) (hf : BasketsAgree (f s)) :
    AnswersAgree (whenLive f s) := by
  unfold whenLive
  split
  · exact .next h
  · exact .next hf

/-- What a take answers with, when there is one. -/
theorem takeLane_eq {f : Frame} {l : LaneNo} {s t : State} (h : takeLane f l s = some t) : t = laneTaken f l s := by
  unfold takeLane at h
  split at h <;> cases h
  rfl

theorem takeBulk_eq {f : Frame} {s t : State} (h : takeBulk f s = some t) : t = bulkTaken f s := by
  unfold takeBulk at h
  split at h <;> cases h
  rfl

/-- A lane request agrees when its body does, on every lane whose state the gate lets pass. -/
theorem laneRequest_agree {k : Byte} {gate : LaneState → Option OutcomeCode} {len : Nat} {r : Req}
    {body : LaneNo → State → State × Answer} {s : State} (h : BasketsAgree s)
    (hb : ∀ l u, BasketsAgree u → gate (u.lane l).state = none → (u.lane l).state ≠ .off →
      BasketsAgree (body l u).1) : AnswersAgree (laneRequest k gate len r body s) := by
  refine whenLive_agree h ?_
  split
  · split
    · next ht =>
      rw [takeBulk_eq ht]
      exact (settleClaims_kept _).agree ((answerBulk_kept ..).agree ((bulkTaken_kept ..).agree h))
    · exact h
  · split
    · split
      · next l _ _ _ ht =>
        rw [takeLane_eq ht]
        have hu := (laneTaken_kept (r.frame k) l s).agree h
        refine (settleClaims_kept _).agree ((answerLane_kept ..).agree ?_)
        unfold laneBody
        split
        · exact hu
        · next hoff =>
          split
          · exact hu
          · next hg =>
            split
            · exact hb l _ hu hg hoff
            · exact hu
      · exact h
    · exact h

/-- A bulk request whose body moves no basket agrees. -/
theorem bulkRequest_agree {k : Byte} {r : Req} {body : State → State × Answer} {s : State} (h : BasketsAgree s)
    (hb : ∀ u, BasketsKept u (body u).1) : AnswersAgree (bulkRequest k r body s) := by
  refine whenLive_agree h ?_
  split
  · split
    · next ht =>
      rw [takeBulk_eq ht]
      exact (settleClaims_kept _).agree ((answerBulk_kept ..).agree ((hb _).agree ((bulkTaken_kept ..).agree h)))
    · exact h
  · split
    · split
      · next l _ _ _ ht =>
        rw [takeLane_eq ht]
        exact (settleClaims_kept _).agree ((answerLane_kept ..).agree ((laneTaken_kept ..).agree h))
      · exact h
    · exact h

theorem gateBasket_none {x : LaneState} (h : gateBasket x = none) : x = .opened ∨ x = .totalled := by
  cases x <;> simp_all [gateBasket]

theorem gateIdle_none {x : LaneState} (h : gateIdle x = none) : x = .idle := by
  cases x <;> simp_all [gateIdle]

theorem onCtx_agree {l : LaneNo} {body : CtxNo → State → State × Answer} {u : State} (h : BasketsAgree u)
    (hb : ∀ c, (u.lane l).ctx = some c → BasketsAgree (body c u).1) : BasketsAgree (onCtx l body u).1 := by
  unfold onCtx
  split
  · next hc => exact hb _ hc
  · exact h

/-- A request on a basket whose body moves none. -/
theorem basketRequest_agree {k : Byte} {len : Nat} {r : Req} {body : LaneNo → CtxNo → State → State × Answer}
    {s : State} (h : BasketsAgree s) (hb : ∀ l c u, (u.lane l).mayIdle → BasketsKept u (body l c u).1) :
    AnswersAgree (laneRequest k gateBasket len r (fun l => onCtx l (body l)) s) :=
  laneRequest_agree h fun l u hu hg _ => onCtx_agree hu fun c _ => (hb l c u (gateBasket_none hg)).agree hu

theorem execOpenBasket_agree (r : Req) {s : State} (h : BasketsAgree s) : AnswersAgree (execOpenBasket r s) :=
  laneRequest_agree h fun l u hu hg _ => openBody_agree hu (by rw [gateIdle_none hg]; rfl)

theorem execRecall_agree (r : Req) {s : State} (h : BasketsAgree s) : AnswersAgree (execRecall r s) :=
  laneRequest_agree h fun l u hu hg _ => recallBody_agree hu (by rw [gateIdle_none hg]; rfl)

theorem execFinalize_agree (r : Req) {s : State} (h : BasketsAgree s) : AnswersAgree (execFinalize r s) :=
  laneRequest_agree h fun _ _ hu _ _ => onCtx_agree hu fun _ hc => finalizeBody_agree hu hc

theorem gateBasket_not_settling {x : LaneState} (h : gateBasket x = none) : x ≠ .settling := by
  rintro rfl; cases h

theorem execVoidBasket_agree (r : Req) {s : State} (h : BasketsAgree s) : AnswersAgree (execVoidBasket r s) :=
  laneRequest_agree h fun _ _ hu hg _ =>
    onCtx_agree hu fun _ hc => voidBasketBody_agree hu hc (gateBasket_not_settling hg)

theorem execPark_agree (r : Req) {s : State} (h : BasketsAgree s) : AnswersAgree (execPark r s) :=
  laneRequest_agree h fun _ _ hu hg _ => onCtx_agree hu fun _ hc => hu.park hc (gateBasket_not_settling hg)

/-! ### The link -/

theorem makeHold_kept (scope : HoldScope) (time : Nat) (s : State) : BasketsKept s (makeHold scope time s) :=
  .of_tables rfl rfl rfl rfl

theorem setInbound_kept (s : State) (q : QueueId) (x : Inbound) : BasketsKept s (s.setInbound q x) :=
  .of_tables (by simp) (by simp) (by simp) (by simp)

theorem storeFrame_kept (q : QueueId) (f : Frame) (s : State) : BasketsKept s (storeFrame q f s) := by
  unfold storeFrame
  dsimp only
  split
  · refine .trans (setInbound_kept s q { s.inbound q with frames := (s.inbound q).frames ++ [f] }) ?_
    unfold testCongestion
    dsimp only
    split
    · exact (setInbound_kept ..).trans (makeHold_kept ..)
    · exact .refl _
  · exact raise_kept ..

theorem arrive_kept (f : Frame) (s : State) : BasketsKept s (arrive f s) := by
  unfold arrive
  split
  · unfold actHold
    split <;> exact .of_tables rfl rfl rfl rfl
  · exact storeFrame_kept ..

theorem linkFault_kept (k : FaultKind) (s : State) : BasketsKept s (linkFault k s) :=
  .of_tables (by simp) (by simp) (by simp) (by simp)

theorem toHunt_kept (s : State) : BasketsKept s (toHunt s) := .of_tables rfl rfl rfl rfl

theorem toAssemble_kept (got : List Byte) (s : State) : BasketsKept s (toAssemble got s) :=
  .of_tables rfl rfl rfl rfl

theorem receiveByte_kept (b : Byte) (s : State) : BasketsKept s (receiveByte b s) := by
  unfold receiveByte
  split
  · split
    · exact toAssemble_kept ..
    · exact .refl _
  · unfold gather
    split
    · exact (toHunt_kept s).trans (linkFault_kept ..)
    · split
      · unfold completeFrame
        split
        · exact (toHunt_kept s).trans (arrive_kept ..)
        · exact (toHunt_kept s).trans (linkFault_kept ..)
      · exact toAssemble_kept ..

theorem startMain_kept (s : State) : BasketsKept s (startMain s) := by
  unfold startMain
  split
  · exact .refl _
  · exact .of_tables rfl rfl rfl rfl

theorem startNotice_kept (s : State) : BasketsKept s (startNotice s) := by
  unfold startNotice
  split
  · exact .refl _
  · exact .of_tables rfl rfl rfl rfl

theorem startNext_kept (s : State) : BasketsKept s (startNext s) := by
  unfold startNext
  split
  · unfold startFirst
    split
    · exact .refl _
    · exact startMain_kept s
  · unfold startLater
    split
    · exact .of_tables rfl rfl rfl rfl
    · split
      · exact startMain_kept s
      · exact startNotice_kept s
      · exact .refl _

theorem finishFrame_kept (x : Transmission) (s : State) : BasketsKept s (finishFrame x s) := by
  have he : BasketsKept s (endFrame s) := .of_tables rfl rfl rfl rfl
  unfold finishFrame
  split
  · refine he.trans (.trans ?_ (settleClaims_kept _))
    unfold noteRestart
    split
    · exact .of_tables rfl rfl rfl rfl
    · exact .refl _
  · exact .of_tables rfl rfl rfl rfl
  · refine he.trans ?_
    unfold holdSent
    dsimp only
    split
    · exact setInbound_kept ..
    · exact .refl _

theorem renewNow_kept (q : QueueId) (s : State) : BasketsKept s (renewNow q s) := by
  unfold renewNow
  dsimp only
  split
  · exact (setInbound_kept ..).trans (makeHold_kept ..)
  · exact setInbound_kept ..

theorem execUnknownKindAnswer_agree (f : Frame) {s : State} (h : BasketsAgree s) :
    AnswersAgree (execUnknownKindAnswer f s) := by
  refine whenLive_agree h ?_
  split
  · split
    · next ht =>
      rw [takeBulk_eq ht]
      exact (settleClaims_kept _).agree (((bulkTaken_kept f s).agree h).of_tables rfl rfl rfl rfl)
    · exact h
  · exact h

theorem byte_agree (b : Byte) {s : State} (h : BasketsAgree s) :
    AnswersAgree (whenLive (fun s => settleClaims (receiveByte b s)) s) :=
  whenLive_agree h ((settleClaims_kept _).agree ((receiveByte_kept ..).agree h))

theorem execHold_agree (r : Req) {s : State} (h : BasketsAgree s) : AnswersAgree (execHold r s) :=
  whenLive_agree h ((settleClaims_kept _).agree ((arrive_kept ..).agree h))

theorem execGapFault_agree {s : State} (h : BasketsAgree s) : AnswersAgree (execGapFault s) := by
  refine whenLive_agree h ?_
  split
  · exact ((toHunt_kept s).trans (linkFault_kept ..)).agree h
  · exact h

theorem execTransmitStart_agree {s : State} (h : BasketsAgree s) : AnswersAgree (execTransmitStart s) := by
  refine whenLive_agree h ?_
  split
  · exact (startNext_kept s).agree h
  · exact h

theorem execTransmitEnd_agree {s : State} (h : BasketsAgree s) : AnswersAgree (execTransmitEnd s) := by
  refine whenLive_agree h ?_
  split
  · exact (finishFrame_kept ..).agree h
  · exact h

theorem execRenewExpiry_agree (q : QueueId) {s : State} (h : BasketsAgree s) :
    AnswersAgree (execRenewExpiry q s) := by
  refine whenLive_agree h ?_
  split
  · exact (renewNow_kept q s).agree h
  · exact h

theorem execOutputHoldExpiry_agree {s : State} (h : BasketsAgree s) : AnswersAgree (execOutputHoldExpiry s) := by
  refine whenLive_agree h ?_
  split
  · exact h.of_tables rfl rfl rfl rfl
  · exact h

/-! ### The scheduler and the settlement writer -/

theorem passOver_kept (l : LaneNo) (s : State) : BasketsKept s (passOver l s) :=
  setLane_kept (.of_eq (by rfl) (by rfl) (by rfl))

theorem passAll_kept (ls : List LaneNo) (s : State) : BasketsKept s (ls.foldl (fun s l => passOver l s) s) := by
  induction ls generalizing s with
  | nil => exact .refl _
  | cons l ls ih => exact (passOver_kept l s).trans (ih _)

theorem grantTo_kept (l : LaneNo) (c : CtxNo) (a : Attachment) (s : State) : BasketsKept s (grantTo l c a s) := by
  unfold grantTo
  dsimp only
  refine (passAll_kept (s.waitingLanes.filter (· != l)) s).trans ?_
  generalize List.foldl (fun s l => passOver l s) s (s.waitingLanes.filter (· != l)) = u
  refine (setLane_kept (l := l) (x := { u.lane l with passOver := 0 }) (.of_eq rfl rfl rfl)).trans ?_
  refine (setCtx_kept (c := c) (x := { (u.setLane l { u.lane l with passOver := 0 }).ctx c with
    wanted := false, inFlight := true }) (by rfl)).trans ?_
  exact .of_tables rfl rfl rfl rfl

theorem placeFrame_kept (f : Frame) (s : State) : BasketsKept s (placeFrame f s) := .of_tables rfl rfl rfl rfl

theorem setOwed_kept (l : LaneNo) (b : Bool) (s : State) : BasketsKept s (setOwed l b s) :=
  setLane_kept (.of_eq (by rfl) (by rfl) (by rfl))

theorem deliverSubtotal_kept (l : LaneNo) (c : CtxNo) (q : Quote) (s : State) :
    BasketsKept s (deliverSubtotal l c q s) := by
  unfold deliverSubtotal
  dsimp only
  split
  · exact .of_tables rfl rfl rfl rfl
  · split
    · exact (placeFrame_kept ..).trans (setOwed_kept ..)
    · exact setOwed_kept ..

theorem deliverQuote_kept {l : LaneNo} (c : CtxNo) (q : Quote) {s : State} (h : (s.lane l).state = .quoting) :
    BasketsKept s (deliverQuote l c q s) := by
  unfold deliverQuote
  refine .trans (t := placeReserved (quoteReply l c q s) s) (.of_tables rfl rfl rfl rfl) ?_
  refine .trans (setLane_kept (.of_states (by rfl) (.inr h) (.inl (.inr (by rfl))))) (startIdle_kept 0 ?_)
  exact .inr (by simp)

theorem deliver_kept (a : Attachment) (c : CtxNo) (q : Quote) (s : State) : BasketsKept s (deliver a c q s) := by
  unfold deliver
  split
  · next h => exact deliverQuote_kept c q h
  · split
    · exact deliverSubtotal_kept ..
    · exact .refl _

theorem dealWith_kept (q : Snapshot) (s : State) : BasketsKept s (dealWith q s) := by
  unfold dealWith
  dsimp only
  split
  · exact .refl _
  · split
    · exact .refl _
    · exact .refl _
    · split
      · split
        · exact setCtx_kept (by rfl)
        · exact .refl _
      · exact (setCtx_kept (by rfl)).trans (deliver_kept ..)

theorem endFlight_kept (f : Flight) (s : State) : BasketsKept s (endFlight f s) :=
  .trans (t := { s with sched := { s.sched with flight := none } }) (.of_tables rfl rfl rfl rfl) (setCtx_kept (by rfl))

theorem execResolveGrant_agree {s : State} (h : BasketsAgree s) : AnswersAgree (execResolveGrant s) := by
  refine whenLive_agree h ?_
  split
  · exact (grantTo_kept ..).agree h
  · exact h

theorem execResolutionComplete_agree {s : State} (h : BasketsAgree s) : AnswersAgree (execResolutionComplete s) := by
  refine whenLive_agree h ?_
  split
  · exact ((endFlight_kept ..).trans ((dealWith_kept ..).trans (settleClaims_kept _))).agree h
  · exact h

theorem useSlot_kept (c : Claim) (s : State) : BasketsKept s (useSlot c s) := .of_tables rfl rfl rfl rfl

theorem execOwedSubtotal_agree (l : LaneNo) {s : State} (h : BasketsAgree s) : AnswersAgree (execOwedSubtotal l s) := by
  refine whenLive_agree h ?_
  split
  · split
    · exact ((useSlot_kept ..).trans ((placeFrame_kept ..).trans ((setOwed_kept ..).trans
        (settleClaims_kept _)))).agree h
    · exact h
  · exact h

theorem placeSettleFrame_kept {l : LaneNo} {st : Stream} (q : Quote) {s : State} (h : s.stream l = some st) :
    BasketsKept s (placeSettleFrame l st q s) := by
  refine ⟨fun m => .refl _, fun c => rfl, fun m => ?_, rfl⟩
  unfold placeSettleFrame State.streamCtx
  rw [stream_setStream]
  split
  · next e => rw [e, h]; rfl
  · rfl

theorem State.openStream_stream {s : State} {l : LaneNo} {st : Stream} {q : Quote}
    (h : s.openStream l = some (st, q)) : s.stream l = some st := by
  unfold State.openStream at h
  split at h
  · next hst =>
    split at h
    · cases h
    · obtain ⟨_, _, he⟩ := Option.map_eq_some_iff.1 h
      cases he
      exact hst
  · cases h

theorem State.endingStream_stream {s : State} {l : LaneNo} {st : Stream} (h : s.endingStream l = some st) :
    s.stream l = some st := by
  unfold State.endingStream at h
  split at h
  · next hst =>
    split at h <;> cases h
    exact hst
  · cases h

theorem execSettlementFrame_agree (l : LaneNo) {s : State} (h : BasketsAgree s) :
    AnswersAgree (execSettlementFrame l s) := by
  refine whenLive_agree h ?_
  split
  · next hst =>
    split
    · exact ((placeSettleFrame_kept _ (State.openStream_stream hst)).trans (settleClaims_kept _)).agree h
    · exact h
  · exact h

theorem endStream_agree {l : LaneNo} {st : Stream} {s : State} (h : BasketsAgree s) (hst : s.stream l = some st) :
    BasketsAgree (endStream l st s) := by
  have hc := (h.settles l st.ctx (by simp [State.streamCtx, hst])).2
  unfold endStream
  dsimp only
  have hk : ∀ f, BasketsKept s (releasePinOf st.ctx (placeFrame f (useSlot (.stream l) s))) := fun f =>
    .of_tables (by simp) (by simp) (by simp) (by simp)
  refine (((hk _).agree h).dropStream l).vacate ?_ ?_
  · rw [lane_congr (setStream_lanes ..), ((hk _).lane l).ctx, hc]
  · simp [State.streamCtx]

theorem execSettleEnd_agree (l : LaneNo) {s : State} (h : BasketsAgree s) : AnswersAgree (execSettleEnd l s) := by
  refine whenLive_agree h ?_
  split
  · next hst =>
    split
    · exact (settleClaims_kept _).agree (endStream_agree h (State.endingStream_stream hst))
    · exact h
  · exact h

/-! ### Timers and resets -/

theorem execReservationExpiry_agree (c : CtxNo) {s : State} (h : BasketsAgree s) :
    AnswersAgree (execReservationExpiry c s) := by
  refine whenLive_agree h ?_
  split
  · exact ((removeReservation_kept c s).trans ((bumpRevision_kept c _).trans ((raise_kept ..).trans
      (settleClaims_kept _)))).agree h
  · exact h

/-- An idle timer that is due runs on a lane in OPEN or TOTALLED (R158). -/
theorem BasketsAgree.idle_due {s : State} (h : BasketsAgree s) {l : LaneNo} {n : Nat} (hd : s.idleDue l n = true) :
    (s.lane l).mayIdle := by
  refine h.timers l fun ht => ?_
  simp [State.idleDue, State.timerDue, ht] at hd

theorem execIdleWarning_agree (l : LaneNo) {s : State} (h : BasketsAgree s) : AnswersAgree (execIdleWarning l s) := by
  refine whenLive_agree h ?_
  split
  · next hd => exact ((startIdle_kept 1 (h.idle_due hd)).trans (raise_kept ..)).agree h
  · exact h

theorem execAutoPark_agree (l : LaneNo) {s : State} (h : BasketsAgree s) : AnswersAgree (execAutoPark l s) := by
  refine whenLive_agree h ?_
  split
  · next hd =>
    split
    · next hc =>
      have hp : (s.lane l).state ≠ .settling := by
        rcases h.idle_due hd with e | e <;> rw [e] <;> decide
      exact (settleClaims_kept _).agree ((h.park hc hp).of_tables (by simp [autoPark]) (by simp [autoPark])
        (by simp [autoPark]) (by simp [autoPark]))
    · exact h
  · exact h

theorem expireParked_agree {c : CtxNo} {n : Nat} {s : State} (h : BasketsAgree s) (hc : (s.ctx c).site = .ticket n) :
    BasketsAgree (expireParked c n s) := by
  have hk : BasketsKept s (dropReferenceOf c (removeClaimsOf c s)) :=
    .of_tables (by simp) (by simp) (by simp) (by simp)
  unfold expireParked
  refine (raise_kept ..).agree ((hk.agree h).unlist (c := c) (n := n) (by rw [hk.site, hc]) (fun m => .refl _)
    (fun m => rfl) (by rw [ctx_freeCtx_same]; rfl) (fun d hd => by rw [ctx_freeCtx_ne _ hd]; rfl) rfl)

theorem execParkExpiry_agree (c : CtxNo) {s : State} (h : BasketsAgree s) : AnswersAgree (execParkExpiry c s) := by
  refine whenLive_agree h ?_
  split
  · next p hp =>
    refine expireParked_agree h (site_eq_ticket.2 ⟨p, ?_, rfl⟩)
    unfold State.expiredParking at hp
    split at hp
    · split at hp <;> cases hp
      assumption
    · cases hp
  · exact h

theorem reset_lane (l : LaneNo) : State.reset.lane l = Lane.initial := by revert l; decide

theorem reset_ctx (c : CtxNo) : State.reset.ctx c = Context.initial := by revert c; decide

theorem reset_stream (l : LaneNo) : State.reset.stream l = none := by revert l; decide

theorem reset_agree : BasketsAgree State.reset := by
  refine ⟨fun l c => ?_, fun l => ?_, fun l c h => ?_, fun l h => ?_, List.nodup_nil, fun e => ?_⟩
  · rw [reset_lane, reset_ctx]; simp [Lane.initial, Context.initial, Context.site]
  · rw [reset_lane]; rfl
  · simp [State.streamCtx, reset_stream] at h
  · rw [reset_lane] at h; exact absurd rfl h
  · rw [reset_ctx]; simp [State.reset, Context.initial, Context.site]

theorem hardValues_agree (s : State) : BasketsAgree (hardValues s) :=
  reset_agree.of_tables rfl rfl rfl rfl

theorem execHardReset_agree (x : BitVec 2) (s : State) : AnswersAgree (execHardReset x s) :=
  .next ((hardValues_agree s).of_tables rfl rfl rfl rfl)

theorem execResetnLow_agree (s : State) : AnswersAgree (execResetnLow s) :=
  .next ((hardValues_agree s).of_tables rfl rfl rfl rfl)

theorem softValues_agree (s : State) : BasketsAgree (softValues s) := by
  refine (configureLanes_kept fun l => ?_).agree ((hardValues_agree s).of_tables rfl rfl rfl rfl)
  show (State.reset.lane l).state.holdsBasket = false
  rw [reset_lane]; rfl

theorem execSoftReset_agree (x : BitVec 2) {s : State} (h : BasketsAgree s) : AnswersAgree (execSoftReset x s) := by
  refine whenLive_agree h ?_
  split
  · exact (softValues_agree s).of_tables rfl rfl rfl rfl
  · exact h

/-! ### The step -/

theorem exec_agree (i : Instr) {s : State} (h : BasketsAgree s) : AnswersAgree (exec i s) := by
  cases i with
  | openBasket r => exact execOpenBasket_agree r h
  | addLine r => exact basketRequest_agree h fun _ _ _ _ => addLineBody_kept ..
  | setQty r => exact basketRequest_agree h fun _ _ _ _ => onLine_kept fun _ => setQtyBody_kept ..
  | voidLine r => exact basketRequest_agree h fun _ _ _ _ => onLine_kept fun _ => voidLineBody_kept ..
  | override r => exact basketRequest_agree h fun _ _ _ _ => onLine_kept fun _ => overrideBody_kept ..
  | clearOverride r => exact basketRequest_agree h fun _ _ _ _ => onLine_kept fun _ => clearOverrideBody_kept ..
  | presentCoupon r => exact basketRequest_agree h fun _ _ _ _ => presentCouponBody_kept ..
  | withdrawCoupon r => exact basketRequest_agree h fun _ _ _ _ => withdrawCouponBody_kept ..
  | attachAccount r => exact basketRequest_agree h fun _ _ _ _ => attachBody_kept ..
  | detachAccount r => exact basketRequest_agree h fun _ _ _ _ => detachBody_kept ..
  | redeem r => exact basketRequest_agree h fun _ _ _ _ => redeemBody_kept ..
  | cancelRedeem r => exact basketRequest_agree h fun _ _ _ _ => cancelRedeemBody_kept ..
  | setTracking r => exact basketRequest_agree h fun _ _ _ _ => setTrackingBody_kept ..
  | total r => exact basketRequest_agree h fun _ _ _ hu => totalBody_kept hu
  | finalize r => exact execFinalize_agree r h
  | voidBasket r => exact execVoidBasket_agree r h
  | park r => exact execPark_agree r h
  | recallBasket r => exact execRecall_agree r h
  | queryBasket r => exact basketRequest_agree h fun _ _ _ _ => queryBasketBody_kept ..
  | bankBegin r => exact bulkRequest_agree h fun _ => withLength_kept (bankBeginBody_kept ..)
  | offerPut r => exact bulkRequest_agree h fun _ => onStaging_kept fun _ => offerPutBody_kept ..
  | offersClose r =>
    exact bulkRequest_agree h fun _ => withLength_kept (onStaging_kept fun _ => offersCloseBody_kept ..)
  | schedulePut r =>
    exact bulkRequest_agree h fun _ => withLength_kept (onStaging_kept fun _ => schedulePutBody_kept ..)
  | bankCommit r => exact bulkRequest_agree h fun _ => withLength_kept (bankCommitBody_kept _)
  | bankAbandon r => exact bulkRequest_agree h fun _ => withLength_kept (onStaging_kept fun _ => setBank_kept ..)
  | authorityLoad r => exact bulkRequest_agree h fun _ => authorityLoadBody_kept ..
  | authorityRemove r => exact bulkRequest_agree h fun _ => withLength_kept (authorityRemoveBody_kept ..)
  | authorityClear r => exact bulkRequest_agree h fun _ => withLength_kept (.of_tables rfl rfl rfl rfl)
  | accountBalance r => exact bulkRequest_agree h fun _ => withLength_kept (accountBalanceBody_kept ..)
  | queryAccount r =>
    exact bulkRequest_agree h fun _ => withLength_kept (by rw [queryAccountBody_state]; exact .refl _)
  | queryClaim r => exact bulkRequest_agree h fun _ => withLength_kept (by rw [queryClaimBody_state]; exact .refl _)
  | configure r => exact bulkRequest_agree h fun _ => withLength_kept (configureBody_kept ..)
  | dayOpen r => exact bulkRequest_agree h fun _ => withLength_kept (dayOpenBody_kept ..)
  | clearConditions r => exact bulkRequest_agree h fun _ => withLength_kept (clearConditionsBody_kept ..)
  | setMask r => exact bulkRequest_agree h fun _ => withLength_kept (setMaskBody_kept ..)
  | identify r => exact bulkRequest_agree h fun _ => withLength_kept (.refl _)
  | status r => exact bulkRequest_agree h fun _ => withLength_kept (by rw [statusBody_state]; exact .refl _)
  | restart r => exact bulkRequest_agree h fun _ => withLength_kept (.of_tables rfl rfl rfl rfl)
  | unknownKindAnswer f => exact execUnknownKindAnswer_agree f h
  | hold r => exact execHold_agree r h
  | frameComplete b => exact byte_agree b h
  | lengthFault b => exact byte_agree b h
  | gapFault => exact execGapFault_agree h
  | transmitStart => exact execTransmitStart_agree h
  | transmitEnd => exact execTransmitEnd_agree h
  | renewExpiry q => exact execRenewExpiry_agree q h
  | outputHoldExpiry => exact execOutputHoldExpiry_agree h
  | resolveGrant => exact execResolveGrant_agree h
  | resolutionComplete => exact execResolutionComplete_agree h
  | owedSubtotal l => exact execOwedSubtotal_agree l h
  | settlementFrame l => exact execSettlementFrame_agree l h
  | settleEnd l => exact execSettleEnd_agree l h
  | reservationExpiry c => exact execReservationExpiry_agree c h
  | idleWarning l => exact execIdleWarning_agree l h
  | autoPark l => exact execAutoPark_agree l h
  | parkExpiry c => exact execParkExpiry_agree c h
  | hardReset x => exact execHardReset_agree x s
  | softReset x => exact execSoftReset_agree x h
  | byteReceived b => exact byte_agree b h
  | resetnLow => exact execResetnLow_agree s

/-- Settles O7: the law told by sites is kept by every command, and by the millisecond of an empty queue. -/
theorem basketsAndLanesAgree : Obligations.BasketsAndLanesAgree := by
  intro s t h hst
  rw [basketsSound_iff] at h ⊢
  unfold step at hst
  split at hst
  · cases hst
    exact h.of_tables rfl rfl rfl rfl
  · exact exec_agree _ (by exact h.of_tables rfl rfl rfl rfl) t hst

end Sys2Proof.Machine


/-! What a request can do, said once for every lane and bulk request: the checks its command makes before its body
(R2, R3, R6, R188), and the ways in which a body answers (R5, R7, R184). -/

namespace Sys2Proof.Machine

/-! ### The ways a body of a lane request answers -/

/-- What a body of a lane request may do to the state `u` it begins with: be carried out with the outcome OK, refuse and
leave the state, refuse for a claim table full of claims, wait with its reply, or begin a settlement stream. -/
inductive BodyAnswers (u : State) : State × Answer → Prop where
  | accepted (t : State) (fields : List Byte) : BodyAnswers u (t, .reply .ok fields)
  | refused {o : OutcomeCode} (fields : List Byte) (ho : o ≠ .claimsFull) : BodyAnswers u (u, .reply o fields)
  | exhausted (fields : List Byte) : BodyAnswers u (startExhaustion u, .reply .claimsFull fields)
  | waits {t : State} (h : t.mainQ.frames = u.mainQ.frames) : BodyAnswers u (t, .later)
  | streams {t : State} {f : Frame} (h : t.mainQ.frames = u.mainQ.frames ++ [f]) (hk : f.kind = 0x63) :
    BodyAnswers u (t, .later)

/-- An answer that refuses, and not for a full claim table. -/
def Answer.refuses (a : Answer) : Prop := ∃ o fields, a = .reply o fields ∧ o ≠ .claimsFull

theorem BodyAnswers.of_refuses {u : State} {a : Answer} (h : a.refuses) : BodyAnswers u (u, a) := by
  obtain ⟨o, fields, rfl, ho⟩ := h
  exact .refused fields ho

theorem BodyAnswers.badField (u : State) (n off : Nat) : BodyAnswers u (u, badField n off) :=
  .refused _ (by decide)

theorem onCtx_answers {l : LaneNo} {body : CtxNo → State → State × Answer} {u : State}
    (h : ∀ c, BodyAnswers u (body c u)) : BodyAnswers u (onCtx l body u) := by
  unfold onCtx
  split
  · exact h _
  · exact .refused _ (by decide)

theorem onLine_answers {p : List Byte} {c : CtxNo} {body : Line → State → State × Answer} {u : State}
    (h : ∀ ln, BodyAnswers u (body ln u)) : BodyAnswers u (onLine p c body u) := by
  unfold onLine
  split
  · exact .badField ..
  · split
    · exact .refused _ (by decide)
    · exact h _

theorem openBody_answers (l : LaneNo) (u : State) : BodyAnswers u (openBody l u) := by
  unfold openBody
  split
  · split
    · exact .refused _ (by decide)
    · split
      · exact .accepted ..
      · exact .refused _ (by decide)
  · exact .refused _ (by decide)

theorem addLineBody_answers (p : List Byte) (c : CtxNo) (u : State) : BodyAnswers u (addLineBody p c u) := by
  unfold addLineBody
  split
  · exact .badField ..
  · dsimp only
    split
    · exact .refused _ (by decide)
    · split
      · exact .refused _ (by decide)
      · exact .accepted ..

theorem setQtyBody_answers (p : List Byte) (c : CtxNo) (ln : Line) (u : State) :
    BodyAnswers u (setQtyBody p c ln u) := by
  unfold setQtyBody
  dsimp only
  split
  · split
    · exact .refused _ (by decide)
    · split
      · exact .refused _ (by decide)
      · exact .accepted ..
  · exact .badField ..

theorem overrideBody_answers (p : List Byte) (c : CtxNo) (ln : Line) (u : State) :
    BodyAnswers u (overrideBody p c ln u) := by
  unfold overrideBody
  split
  · exact .badField ..
  · dsimp only
    split
    · exact .refused _ (by decide)
    · split
      · exact .refused _ (by decide)
      · split
        · exact .refused _ (by decide)
        · split
          · exact .refused _ (by decide)
          · split
            · exact .refused _ (by decide)
            · exact .accepted ..

theorem lookupRefusal_refuses {s : State} {serial : Nat} {a : Answer} (h : lookupRefusal s serial = some a) :
    a.refuses := by
  unfold lookupRefusal at h
  split at h
  · cases h
  · split at h
    · cases h
    · split at h <;> cases h
      · exact ⟨_, _, rfl, by decide⟩
      · exact ⟨_, _, rfl, by decide⟩

theorem listRefusal_refuses {k : Coupon} {cs : List Coupon} {a : Answer} (h : listRefusal k cs = some a) :
    a.refuses := by
  unfold listRefusal at h
  split at h
  · cases h; exact ⟨_, _, rfl, by decide⟩
  · split at h
    · cases h; exact ⟨_, _, rfl, by decide⟩
    · split at h
      · cases h; exact ⟨_, _, rfl, by decide⟩
      · split at h
        · obtain ⟨n, -, rfl⟩ := Option.map_eq_some_iff.1 h
          exact ⟨_, _, rfl, by decide⟩
        · cases h

theorem offerRefusal_refuses {k : Coupon} {at' : Attachment} {x : Bank} {a : Answer}
    (h : offerRefusal k at' x = some a) : a.refuses := by
  unfold offerRefusal at h
  split at h
  · cases h
  · split at h
    · cases h; exact ⟨_, _, rfl, by decide⟩
    · split at h <;> cases h
      exact ⟨_, _, rfl, by decide⟩

theorem claimCoupon_answers (k : Coupon) (c : CtxNo) (u : State) : BodyAnswers u (claimCoupon k c u) := by
  unfold claimCoupon
  split
  · next h => exact .of_refuses (lookupRefusal_refuses h)
  · split
    · exact .exhausted _
    · exact .accepted ..

theorem presentCouponBody_answers (p : List Byte) (c : CtxNo) (u : State) :
    BodyAnswers u (presentCouponBody p c u) := by
  unfold presentCouponBody
  split
  · exact .badField ..
  · dsimp only
    split
    · next h => exact .of_refuses (listRefusal_refuses h)
    · split
      · next h =>
        obtain ⟨_, -, h⟩ := Option.bind_eq_some_iff.1 h
        exact .of_refuses (offerRefusal_refuses h)
      · exact claimCoupon_answers ..

theorem withdrawCouponBody_answers (p : List Byte) (c : CtxNo) (u : State) :
    BodyAnswers u (withdrawCouponBody p c u) := by
  unfold withdrawCouponBody
  dsimp only
  split
  · exact .badField ..
  · exact .accepted ..

theorem attachBody_answers (p : List Byte) (c : CtxNo) (u : State) : BodyAnswers u (attachBody p c u) := by
  unfold attachBody
  split
  · exact .badField ..
  · exact .accepted ..

theorem detachBody_answers (c : CtxNo) (u : State) : BodyAnswers u (detachBody c u) := by
  unfold detachBody
  split
  · exact .refused _ (by decide)
  · exact .accepted ..

theorem redeemBody_answers (p : List Byte) (c : CtxNo) (u : State) : BodyAnswers u (redeemBody p c u) := by
  unfold redeemBody
  dsimp only
  split
  · split
    · exact .refused _ (by decide)
    · split
      · exact .refused _ (by decide)
      · split
        · exact .refused _ (by decide)
        · exact .accepted ..
  · exact .badField ..

theorem cancelRedeemBody_answers (c : CtxNo) (u : State) : BodyAnswers u (cancelRedeemBody c u) := by
  unfold cancelRedeemBody
  split
  · exact .refused _ (by decide)
  · exact .accepted ..

theorem setTrackingBody_answers (p : List Byte) (l : LaneNo) (c : CtxNo) (u : State) :
    BodyAnswers u (setTrackingBody p l c u) := by
  unfold setTrackingBody
  split
  · exact .badField ..
  · dsimp only
    split <;> exact .accepted ..

theorem totalBody_answers (tag : Byte) (l : LaneNo) (c : CtxNo) (u : State) :
    BodyAnswers u (totalBody tag l c u) := by
  unfold totalBody
  split
  · exact .accepted ..
  · exact .waits rfl

theorem convertPoints_mainQ (c : CtxNo) (used : Nat) (s : State) : (convertPoints c used s).mainQ = s.mainQ := by
  unfold convertPoints; split <;> rfl

/-- FINALIZE places the SETTLE_HEAD of its stream, and no reply (R147). -/
theorem settle_frames (tag : Byte) (l : LaneNo) (c : CtxNo) (q : Quote) (u : State) :
    ∃ f, (settle tag l c q u).mainQ.frames = u.mainQ.frames ++ [f] ∧ f.kind = 0x63 := by
  refine ⟨settleFrameOf l
    { ctx := c, tag := tag, lineFrames := lineFramesOf (u.ctx c).lines, placed := 1,
      crc := crc32Fold crc32Init (headPayload c (u.ctx c) (u.ctx c).day (u.ctx c).accountId
        (balanceAfter u c q.pointsUsed) q) } 0x63
    (headPayload c (u.ctx c) (u.ctx c).day (u.ctx c).accountId (balanceAfter u c q.pointsUsed) q), ?_, rfl⟩
  simp [settle, startStream, convertPoints_mainQ]

theorem finalizeBody_answers (tag : Byte) (l : LaneNo) (c : CtxNo) (u : State) :
    BodyAnswers u (finalizeBody tag l c u) := by
  unfold finalizeBody
  split
  · obtain ⟨f, hf, hk⟩ := settle_frames tag l c ‹_› u
    exact .streams hf hk
  · exact .refused _ (by decide)

theorem recallBody_answers (p : List Byte) (l : LaneNo) (u : State) : BodyAnswers u (recallBody p l u) := by
  unfold recallBody
  dsimp only
  split
  · split
    · exact .badField ..
    · split
      · exact .refused _ (by decide)
      · split
        · exact .accepted ..
        · exact .refused _ (by decide)
  · exact .refused _ (by decide)

theorem queryBasketBody_answers (p : List Byte) (c : CtxNo) (u : State) :
    BodyAnswers u (queryBasketBody p c u) := by
  unfold queryBasketBody
  dsimp only
  split
  · exact .accepted ..
  · exact .badField ..

/-! ### The checks before a body -/

/-- The lane-state check of a lane request, by its kind (R3). -/
def gateOf (k : Byte) : LaneState → Option OutcomeCode :=
  if k = 0x01 ∨ k = 0x12 then gateIdle else if k = 0x0F then gateFinalize else gateBasket

theorem gateOf_idle {k : Byte} (h : k ≠ 0x01) (h' : k ≠ 0x12) : gateOf k .idle = some .badState := by
  unfold gateOf
  rw [if_neg (not_or.2 ⟨h, h'⟩)]
  split <;> rfl

theorem gateOf_open {k : Byte} (h : k = 0x01 ∨ k = 0x12) : gateOf k = gateIdle := if_pos h

/-- A lane in OPEN or TOTALLED passes every check but that of OPEN_BASKET and RECALL, and FINALIZE asks for TOTALLED. -/
theorem gateOf_basket {k : Byte} {x : LaneState} (hx : x = .totalled ∨ (x = .opened ∧ k ≠ 0x0F)) (h : k ≠ 0x01)
    (h' : k ≠ 0x12) : gateOf k x = none := by
  unfold gateOf
  rw [if_neg (not_or.2 ⟨h, h'⟩)]
  rcases hx with rfl | ⟨rfl, hf⟩
  · split <;> rfl
  · rw [if_neg hf]; rfl

theorem gateOf_refuses {k : Byte} {x : LaneState} {o : OutcomeCode} (h : gateOf k x = some o) : o ≠ .claimsFull := by
  unfold gateOf at h
  split at h
  · cases x <;> cases h <;> decide
  · split at h <;> cases x <;> cases h <;> decide

/-- The step of a lane request is that of `laneRequest` with the check and the length of its kind, and a body that
answers in one of the ways of `BodyAnswers`. -/
theorem lane_arm {i : Instr} {k : Byte} {r : Req} (hk : i.kind? = some k) (hl : isLaneKind k = true)
    (hr : i.req? = some r) :
    ∃ body, (∀ s, exec i s = laneRequest k (gateOf k) (laneLength k) r body s) ∧
      ∀ l u, BodyAnswers u (body l u) := by
  cases i <;> cases hk <;> cases hr
  case openBasket => exact ⟨_, fun _ => rfl, openBody_answers⟩
  case addLine => exact ⟨_, fun _ => rfl, fun _ _ => onCtx_answers fun _ => addLineBody_answers ..⟩
  case setQty =>
    exact ⟨_, fun _ => rfl, fun _ _ => onCtx_answers fun _ => onLine_answers fun _ => setQtyBody_answers ..⟩
  case voidLine => exact ⟨_, fun _ => rfl, fun _ _ => onCtx_answers fun _ => onLine_answers fun _ => .accepted ..⟩
  case override =>
    exact ⟨_, fun _ => rfl, fun _ _ => onCtx_answers fun _ => onLine_answers fun _ => overrideBody_answers ..⟩
  case clearOverride =>
    exact ⟨_, fun _ => rfl, fun _ _ => onCtx_answers fun _ => onLine_answers fun _ => .accepted ..⟩
  case presentCoupon => exact ⟨_, fun _ => rfl, fun _ _ => onCtx_answers fun _ => presentCouponBody_answers ..⟩
  case withdrawCoupon => exact ⟨_, fun _ => rfl, fun _ _ => onCtx_answers fun _ => withdrawCouponBody_answers ..⟩
  case attachAccount => exact ⟨_, fun _ => rfl, fun _ _ => onCtx_answers fun _ => attachBody_answers ..⟩
  case detachAccount => exact ⟨_, fun _ => rfl, fun _ _ => onCtx_answers fun _ => detachBody_answers ..⟩
  case redeem => exact ⟨_, fun _ => rfl, fun _ _ => onCtx_answers fun _ => redeemBody_answers ..⟩
  case cancelRedeem => exact ⟨_, fun _ => rfl, fun _ _ => onCtx_answers fun _ => cancelRedeemBody_answers ..⟩
  case setTracking => exact ⟨_, fun _ => rfl, fun _ _ => onCtx_answers fun _ => setTrackingBody_answers ..⟩
  case total => exact ⟨_, fun _ => rfl, fun _ _ => onCtx_answers fun _ => totalBody_answers ..⟩
  case finalize => exact ⟨_, fun _ => rfl, fun _ _ => onCtx_answers fun _ => finalizeBody_answers ..⟩
  case voidBasket => exact ⟨_, fun _ => rfl, fun _ _ => onCtx_answers fun _ => .accepted ..⟩
  case park => exact ⟨_, fun _ => rfl, fun _ _ => onCtx_answers fun _ => .accepted ..⟩
  case recallBasket => exact ⟨_, fun _ => rfl, fun _ _ => recallBody_answers ..⟩
  case queryBasket => exact ⟨_, fun _ => rfl, fun _ _ => onCtx_answers fun _ => queryBasketBody_answers ..⟩
  all_goals exact absurd hl (by decide)

/-- The step of a bulk request is that of `bulkRequest`; all but OFFER_PUT and AUTHORITY_LOAD check the length of their
kind first (R188). -/
theorem bulk_arm {i : Instr} {k : Byte} {r : Req} (hk : i.kind? = some k) (hb : isBulkKind k = true)
    (hr : i.req? = some r) :
    ∃ body, (∀ s, exec i s = bulkRequest k r body s) ∧
      (k ≠ 0x21 → k ≠ 0x26 → ∃ inner, body = withLength (bulkLength k) r inner) := by
  cases i <;> cases hk <;> cases hr
  case offerPut => exact ⟨_, fun _ => rfl, fun h _ => absurd rfl h⟩
  case authorityLoad => exact ⟨_, fun _ => rfl, fun _ h => absurd rfl h⟩
  case bankBegin | offersClose | schedulePut | bankCommit | bankAbandon | authorityRemove | authorityClear
      | accountBalance | queryAccount | queryClaim | configure | dayOpen | clearConditions | setMask | identify
      | status | restart =>
    exact ⟨_, fun _ => rfl, fun _ _ => ⟨_, rfl⟩⟩
  all_goals exact absurd hb (by decide)

end Sys2Proof.Machine


/-! The checks every request passes first, what a refusal leaves, and the commands that are not made now (R2 to R7,
R162, R166, R184, R188). -/

namespace Sys2Proof.Machine

/-! ### Commands not made now (assumption 2) -/

theorem takeLane_none {s : State} {k : Byte} {r : Req} {l : LaneNo} (hs : s.device.resetLow = false)
    (hl : laneOf r.lane = some l) (h : ¬ TakesLane s k r l) : takeLane (r.frame k) l s = none := by
  unfold takeLane
  exact if_neg fun ⟨h1, h2, h3⟩ => h ⟨hs, h1, hl, h2, h3⟩

theorem takeBulk_none {s : State} {f : Frame} (hs : s.device.resetLow = false) (h : ¬ TakesBulk s f) :
    takeBulk f s = none := by
  unfold takeBulk
  exact if_neg fun ⟨h1, h2, h3⟩ => h ⟨hs, h1, h2, h3⟩

/-- While RESETn is low a step that waits for it changes nothing (R162). -/
theorem whenLive_low {f : State → State} {s : State} (h : s.device.resetLow = true) : whenLive f s = .next s := by
  simp [whenLive, h]

theorem whenLive_live {f : State → State} {s : State} (h : s.device.resetLow = false) :
    whenLive f s = .next (f s) := by
  simp [whenLive, h]

/-- A step that waits for RESETn and would leave the state as it is. -/
theorem whenLive_idle {f : State → State} {s : State} (h : s.device.resetLow = false → f s = s) :
    whenLive f s = .next s := by
  cases hs : s.device.resetLow with
  | true => exact whenLive_low hs
  | false => rw [whenLive_live hs, h hs]

theorem laneRequest_not_taken {k : Byte} {gate : LaneState → Option OutcomeCode} {len : Nat} {r : Req}
    {body : LaneNo → State → State × Answer} {s : State} (hl : ∀ l, ¬ TakesLane s k r l)
    (hb : r.lane = 0 → ¬ TakesBulk s (r.frame k)) : laneRequest k gate len r body s = .next s := by
  refine whenLive_idle fun hs => ?_
  split
  · next h0 => rw [takeBulk_none hs (hb h0)]
  · split
    · next hl' => rw [takeLane_none hs hl' (hl _)]
    · rfl

theorem bulkRequest_not_taken {k : Byte} {r : Req} {body : State → State × Answer} {s : State}
    (hl : ∀ l, ¬ TakesLane s k r l) (hb : r.lane = 0 → ¬ TakesBulk s (r.frame k)) :
    bulkRequest k r body s = .next s := by
  refine whenLive_idle fun hs => ?_
  split
  · next h0 => rw [takeBulk_none hs (hb h0)]
  · split
    · next hl' => rw [takeLane_none hs hl' (hl _)]
    · rfl

/-- A frame that another chapter answers has no outcome of R166. -/
theorem unanswerableOutcome_none {f : Frame} (hk : isKnownKind f.kind = true) (hh : f.kind ≠ 0x40)
    (hl : f.lane.toNat ≤ 8) : unanswerableOutcome f = none := by
  have h8 : ¬ 8 < f.lane.toNat := by omega
  have hh' : (f.kind == kindHold) = false := by simpa [kindHold] using hh
  simp [unanswerableOutcome, hk, h8, hh']

theorem execUnknownKindAnswer_idle {f : Frame} {s : State}
    (h : ¬ TakesBulk s f ∨ (isKnownKind f.kind = true ∧ f.kind ≠ 0x40 ∧ f.lane.toNat ≤ 8)) :
    execUnknownKindAnswer f s = .next s := by
  refine whenLive_idle fun hs => ?_
  split
  · next ho =>
    rcases h with h | ⟨hk, hh, hl⟩
    · rw [takeBulk_none hs h]
    · rw [unanswerableOutcome_none hk hh hl] at ho; cases ho
  · rfl

/-- A step that answers by RESETn, seen through the name of its command. -/
theorem next_of_low {o : Out} {s t : State} (h : s.device.resetLow = true)
    (e : o = .next (if s.device.resetLow then s else t)) : o = .next s := by
  rw [e, if_pos h]

/-- Every command but the two resets of the RESETn line waits for it (R162). -/
theorem exec_low {i : Instr} {s : State} (h : s.device.resetLow = true) (hh : ∀ x, i ≠ .hardReset x)
    (hr : i ≠ .resetnLow) : exec i s = .next s := by
  cases i
  case hardReset x => exact absurd rfl (hh x)
  case resetnLow => exact absurd rfl hr
  all_goals exact next_of_low h rfl

/-- Settles O42: a step not made now is one whose take fails, or one that waits for RESETn. -/
theorem commandsNotMadeNowChangeNothing : Obligations.CommandsNotMadeNowChangeNothing := by
  refine ⟨fun i k r s hk hkind hr hl hb => ?_, fun f s h => execUnknownKindAnswer_idle h,
    fun i s h hh hr => exec_low h hh hr, fun s h => by simp [step, h]⟩
  rcases hkind with hkind | hkind
  · obtain ⟨body, he, -⟩ := lane_arm hk hkind hr
    rw [he, laneRequest_not_taken hl hb]
  · obtain ⟨body, he, -⟩ := bulk_arm hk hkind hr
    rw [he, bulkRequest_not_taken hl hb]

/-! ### What a take leaves of the lanes and accounts -/

theorem lane_of_removed (f : Frame) (s : State) :
    ∀ m, (removeFrame .pool f (reserveSlot (useSlot .laneTake s))).lane m = s.lane m := lane_congr (by simp)

theorem startIdle_lanes_congr {s u : State} (n : Nat) (l : LaneNo) (h : u.lanes = s.lanes)
    (hc : u.config = s.config) (hn : u.now = s.now) : (startIdle n l u).lanes = (startIdle n l s).lanes := by
  simp only [startIdle, State.after, hc, hn, lane_congr h]
  split <;> simp only [State.setLane, h]

/-- The lanes after a take are those after its signal to the idle timer. -/
theorem laneTaken_lanes (f : Frame) (l : LaneNo) (s : State) : (laneTaken f l s).lanes = (touchIdle l s).lanes := by
  have h := startIdle_lanes_congr (u := removeFrame .pool f (reserveSlot (useSlot .laneTake s))) (s := s) 0 l
    (by simp) (by simp) (by simp)
  rw [laneTaken, touchReservation_lanes]
  simp only [touchIdle, lane_of_removed]
  split <;> simp [h]

/-- The accounts after a take are those after its signal to the reservation timer. -/
theorem laneTaken_accounts_eq (f : Frame) (l : LaneNo) (s : State) :
    (laneTaken f l s).accounts = (touchReservation l s).accounts := by
  cases hc : (s.lane l).ctx with
  | some c => rw [laneTaken_accounts hc]; simp [touchReservation, hc, accountsTouched]
  | none =>
    have h := laneTaken_lane_ctx f l l s
    rw [hc] at h
    unfold laneTaken at h ⊢
    rw [lane_congr (touchReservation_lanes ..)] at h
    simp [touchReservation, h, hc]

@[simp] theorem laneTaken_laneRevision (f : Frame) (l m : LaneNo) (s : State) :
    (laneTaken f l s).laneRevision m = s.laneRevision m := by
  simp [State.laneRevision]

theorem touchIdle_lane_ne {l m : LaneNo} (s : State) (h : m ≠ l) : (touchIdle l s).lane m = s.lane m := by
  unfold touchIdle
  split <;> simp [startIdle_lane, h]

/-! ### Refusals before the body -/

/-- A lane request refused with the state as its take left it: the reply, and the frame of everything else. -/
theorem refused_taken (s : State) (k : Byte) (r : Req) (l : LaneNo) (o : OutcomeCode) (fields : List Byte) :
    ∃ t, Host.Outcome.next (φ := Fault) (ρ := Refusal)
        (settleClaims (answerLane k r l (laneTaken (r.frame k) l s, .reply o fields))) = .next t ∧
      LaneAnswered s t k r o (s.laneRevision l) fields ∧ t.lanes = (touchIdle l s).lanes ∧
      t.accounts = (touchReservation l s).accounts ∧ t.ctxs = s.ctxs ∧ LaneFrame s t := by
  refine ⟨_, rfl, ?_⟩
  rw [answerLane_reply]
  refine ⟨laneAnswered_of rfl rfl rfl (by simp), by simp [laneTaken_lanes], by simp [laneTaken_accounts_eq], by simp,
    laneFrame_of rfl ⟨rfl, rfl, rfl⟩ rfl⟩

theorem laneBody_off {gate : LaneState → Option OutcomeCode} {len : Nat} {r : Req} {l : LaneNo}
    {body : State → State × Answer} {u : State} (h : (u.lane l).state = .off) :
    laneBody gate len r l body u = (u, .reply .badLane []) := by
  simp [laneBody, h]

theorem laneBody_gate {gate : LaneState → Option OutcomeCode} {len : Nat} {r : Req} {l : LaneNo}
    {body : State → State × Answer} {u : State} {o : OutcomeCode} (h : (u.lane l).state ≠ .off)
    (hg : gate (u.lane l).state = some o) : laneBody gate len r l body u = (u, .reply o []) := by
  simp [laneBody, h, hg]

theorem laneBody_length {gate : LaneState → Option OutcomeCode} {len : Nat} {r : Req} {l : LaneNo}
    {body : State → State × Answer} {u : State} (h : (u.lane l).state ≠ .off)
    (hg : gate (u.lane l).state = none) (hl : r.payload.length ≠ len) :
    laneBody gate len r l body u = (u, badLength) := by
  simp [laneBody, h, hg, hl]

theorem laneBody_body {gate : LaneState → Option OutcomeCode} {len : Nat} {r : Req} {l : LaneNo}
    {body : State → State × Answer} {u : State} (h : (u.lane l).state ≠ .off)
    (hg : gate (u.lane l).state = none) (hl : r.payload.length = len) :
    laneBody gate len r l body u = body u := by
  simp [laneBody, h, hg, hl]

/-- A lane request answered from the state its take left, on an IDLE lane. -/
theorem refused_idle {s : State} (k : Byte) (r : Req) {l : LaneNo} (o : OutcomeCode) (fields : List Byte)
    (h : (s.lane l).state = .idle) :
    ∃ t, Host.Outcome.next (φ := Fault) (ρ := Refusal)
        (settleClaims (answerLane k r l (laneTaken (r.frame k) l s, .reply o fields))) = .next t ∧
      LaneAnswered s t k r o (s.laneRevision l) fields ∧ t.lanes = s.lanes ∧ t.ctxs = s.ctxs ∧ LaneFrame s t := by
  obtain ⟨t, he, ha, hl, -, hc, hf⟩ := refused_taken s k r l o fields
  rw [touchIdle_off (by rw [h]; decide) (by rw [h]; decide)] at hl
  exact ⟨t, he, ha, hl, hc, hf⟩

/-- A lane request answered from the state its take left, on a lane in OPEN or TOTALLED. -/
theorem refused_watched {s : State} (k : Byte) (r : Req) {l : LaneNo} (o : OutcomeCode) (fields : List Byte)
    (h : (s.lane l).state = .opened ∨ (s.lane l).state = .totalled) :
    ∃ t, Host.Outcome.next (φ := Fault) (ρ := Refusal)
        (settleClaims (answerLane k r l (laneTaken (r.frame k) l s, .reply o fields))) = .next t ∧
      LaneAnswered s t k r o (s.laneRevision l) fields ∧ t.lane l = watched s l ∧ OtherLanesKept s t l ∧
      t.ctxs = s.ctxs ∧ LaneFrame s t := by
  obtain ⟨t, he, ha, hl, -, hc, hf⟩ := refused_taken s k r l o fields
  refine ⟨t, he, ha, ?_, fun m hm => ?_, hc, hf⟩
  · rw [lane_congr hl, touchIdle_lane_on h, if_pos rfl]
  · rw [lane_congr hl, touchIdle_lane_on h, if_neg hm]

theorem badLength_eq : badLength = .reply .badField [0, 255] := by decide

/-- Settles O12: the checks of `laneBody` in their order, each with the answer it gives. -/
theorem requestsAreCheckedForLaneStateAndLength : Obligations.RequestsAreCheckedForLaneStateAndLength := by
  refine ⟨fun i k r s hk hr => ⟨fun hl h0 ht => ?_, fun l ht hc => ?_⟩, fun i k r l s hk hl hr ht => ?_,
    fun i k r s hk hb hr h21 h26 h0 ht hlen => ?_⟩
  · obtain ⟨body, he, -⟩ := lane_arm hk hl hr
    rw [he, laneRequest_bulk h0 ht, answerBulk_reply]
    exact ⟨_, rfl, bulkAnswered_of rfl rfl rfl, bulkFrame_taken ..⟩
  · rcases hc with hb | ⟨hl, hoff⟩
    · obtain ⟨body, he, -⟩ := bulk_arm hk hb hr
      rw [he, bulkRequest_lane ht]
      exact refused_taken ..
    · obtain ⟨body, he, -⟩ := lane_arm hk hl hr
      rw [he, laneRequest_takes ht, laneBody_off (by simpa using hoff)]
      exact refused_taken ..
  · obtain ⟨body, he, -⟩ := lane_arm hk hl hr
    rw [he, laneRequest_takes ht]
    refine ⟨fun hs h1 h12 => ?_, fun hs hk hlen => ?_, fun hs hk => ?_, fun hs h1 h12 hlen => ?_⟩
    · rw [laneBody_gate (by simp [hs]) (by rw [laneTaken_state, hs]; exact gateOf_idle h1 h12)]
      exact refused_idle _ _ _ _ hs
    · rw [laneBody_length (by simp [hs]) (by rw [laneTaken_state, hs, gateOf_open hk]; rfl) hlen, badLength_eq]
      exact refused_idle _ _ _ _ hs
    · rw [laneBody_gate (o := .badState) (by rcases hs with hs | hs <;> simp [hs])
        (by rcases hs with hs | hs <;> rw [laneTaken_state, hs, gateOf_open hk] <;> rfl)]
      exact refused_watched _ _ _ _ hs
    · have hs' : (s.lane l).state = .opened ∨ (s.lane l).state = .totalled :=
        hs.symm.imp_left And.left
      rw [laneBody_length (by rcases hs' with hs' | hs' <;> simp [hs'])
        (by rw [laneTaken_state]; exact gateOf_basket hs h1 h12) hlen, badLength_eq]
      exact refused_watched _ _ _ _ hs'
  · obtain ⟨body, he, hw⟩ := bulk_arm hk hb hr
    obtain ⟨inner, rfl⟩ := hw h21 h26
    rw [he]
    exact bulkRequest_refused h0 ht _ (by rw [withLength, if_neg hlen, badLength_eq])

/-! ### Refused lane requests -/

/-- Nothing but its own part changes in a lane request from state `s`: `t` is what its body and reply left, the slots of
the main queue still to be served. -/
theorem laneFrame_settled {s t : State}
    (h : t = { s with
      pool := t.pool, link := { s.link with deviceHolds := t.link.deviceHolds }
      mainQ := t.mainQ, draws := t.draws, lanes := t.lanes, ctxs := t.ctxs, accounts := t.accounts })
    (hq : t.mainQ.requests = s.mainQ.requests) (hv : t.mainQ.served = s.mainQ.served.erase .laneTake)
    (hd : t.draws = s.draws) : LaneFrame s (settleClaims t) := by
  refine ⟨?_, ?_⟩
  · apply State.ext <;> simp
    all_goals rw [h]
  · have hs := settleClaims_served t
    rwa [hq, hv, hd] at hs

theorem laneBody_answers {k : Byte} {len : Nat} {r : Req} {l : LaneNo} {body : State → State × Answer} {u : State}
    (h : BodyAnswers u (body u)) : BodyAnswers u (laneBody (gateOf k) len r l body u) := by
  unfold laneBody
  split
  · exact .refused _ (by decide)
  · split
    · next hg => exact .refused _ (gateOf_refuses hg)
    · split
      · exact h
      · exact .refused _ (by decide)

/-! ### A raise (R176, R177) -/

@[simp] theorem placeNotice_cond (c d : CondClass) (s : State) : (placeNotice c s).cond d = s.cond d :=
  cond_congr (placeNotice_conds ..) d

theorem raise_cond (c d : CondClass) (f : Detail → Detail) (s : State) : (raise c f s).cond d =
    if d = c then { pending := true, detail := f (s.cond c).detail } else s.cond d := by
  unfold raise
  dsimp only
  split <;> simp [cond_setCond]

@[simp] theorem raise_mask (c : CondClass) (f : Detail → Detail) (s : State) :
    (raise c f s).conds.mask = s.conds.mask := by
  unfold raise
  dsimp only
  split <;> simp

/-- The notice of a raise (R177). -/
theorem raise_notices (c : CondClass) (f : Detail → Detail) (s : State) :
    (raise c f s).notices = noticesAfter s c s.notices := by
  unfold raise noticesAfter
  dsimp only
  split
  · next h =>
    rw [if_neg fun hn => by simp [hn.1, hn.2.1] at h]
    rfl
  · next h =>
    have hp : (s.cond c).pending = false ∧ s.masked c = false := by simpa using h
    unfold placeNotice
    by_cases hm : c ∈ s.notices <;> simp [hp, hm]

theorem noticesAfter_congr {s u : State} (h : u.conds = s.conds) (c : CondClass) (queued : List CondClass) :
    noticesAfter u c queued = noticesAfter s c queued := by
  unfold noticesAfter State.masked
  rw [cond_congr h, h]

/-! ### Refused lane requests -/

/-- What a lane request leaves that is answered without an effect on baskets: `v` is the state its take left, but for
the condition of a full claim table. -/
theorem refusal_frame {s v : State} {k : Byte} {r : Req} {l : LaneNo} (f : Frame)
    (hv : v = { laneTaken (r.frame k) l s with conds := v.conds, notices := v.notices }) :
    FrameTaken .pool (r.frame k) s (settleClaims (placeReserved f v)) ∧
      (settleClaims (placeReserved f v)).mainQ.reserved = s.mainQ.reserved ∧
      (settleClaims (placeReserved f v)).lanes = (touchIdle l s).lanes ∧
      (settleClaims (placeReserved f v)).accounts = (touchReservation l s).accounts ∧
      (settleClaims (placeReserved f v)).ctxs = s.ctxs ∧
      LaneFrame { s with conds := v.conds, notices := v.notices } (settleClaims (placeReserved f v)) := by
  refine ⟨(laneTaken_taken (r.frame k) l s).congr ?_ ?_, ?_, ?_, ?_, ?_, laneFrame_settled ?_ ?_ ?_ ?_⟩
  · simp only [State.inbound, settleClaims_pool, placeReserved_pool]; rw [hv]
  · simp only [settleClaims_link, placeReserved_link]; rw [hv]
  · simp only [settleClaims_reserved, placeReserved_reserved]; rw [hv]; simp
  · simp only [settleClaims_lanes, placeReserved_lanes]; rw [hv]; exact laneTaken_lanes ..
  · simp only [settleClaims_accounts, placeReserved_accounts]; rw [hv]; exact laneTaken_accounts_eq ..
  · simp only [settleClaims_ctxs, placeReserved_ctxs]; rw [hv]; simp
  · have hl := laneTaken_link (r.frame k) l s
    apply State.ext <;> simp
    all_goals rw [hv]
    all_goals simp
    exact hl
  · show v.mainQ.requests = _
    rw [hv]; exact laneTaken_requests ..
  · show v.mainQ.served = _
    rw [hv]; exact laneTaken_served ..
  · show v.draws = _
    rw [hv]; simp

theorem laneKind_ne_settle {k : Byte} (hk : isLaneKind k = true) : (0x63 : Byte) ≠ 0x80 + k := by
  intro h
  have : k = 0xE3 := by bv_omega
  subst this
  exact absurd hk (by decide)

/-- What a lane request answered with outcome `o`, not OK, leaves of the state `s` (R7, R95, R184). -/
def RefusalLeaves (s t : State) (k : Byte) (r : Req) (l : LaneNo) (o : Byte) : Prop :=
  FrameTaken .pool (r.frame k) s t ∧ t.mainQ.reserved = s.mainQ.reserved ∧
    t.lanes = (touchIdle l s).lanes ∧ t.accounts = (touchReservation l s).accounts ∧ t.ctxs = s.ctxs ∧
    LaneFrame { s with conds := t.conds, notices := t.notices } t ∧
    (o = OutcomeCode.claimsFull.code →
      t.cond .claimsFull = { pending := true, detail := (s.cond .claimsFull).detail } ∧
      OtherConditionsKept s t .claimsFull ∧ t.notices = noticesAfter s .claimsFull s.notices) ∧
    (o ≠ OutcomeCode.claimsFull.code → t.conds = s.conds ∧ t.notices = s.notices)

theorem OutcomeCode.eq_claimsFull {o : OutcomeCode} (h : o.code = OutcomeCode.claimsFull.code) : o = .claimsFull := by
  revert h
  cases o <;> decide

theorem refused_leaves (s : State) (k : Byte) (r : Req) (l : LaneNo) (f : Frame) {o : OutcomeCode}
    (ho : o ≠ .claimsFull) :
    RefusalLeaves s (settleClaims (placeReserved f (laneTaken (r.frame k) l s))) k r l o.code := by
  obtain ⟨htaken, hres, hlanes, hacc, hctxs, hframe⟩ :=
    refusal_frame (s := s) (v := laneTaken (r.frame k) l s) (k := k) (r := r) (l := l) f rfl
  exact ⟨htaken, hres, hlanes, hacc, hctxs, by simpa using hframe,
    fun hc => absurd (OutcomeCode.eq_claimsFull hc) ho, fun _ => ⟨by simp, by simp⟩⟩

theorem exhausted_leaves (s : State) (k : Byte) (r : Req) (l : LaneNo) (f : Frame) :
    RefusalLeaves s (settleClaims (placeReserved f (startExhaustion (laneTaken (r.frame k) l s)))) k r l
      OutcomeCode.claimsFull.code := by
  have hv : ∀ u, startExhaustion u =
      { u with conds := (startExhaustion u).conds, notices := (startExhaustion u).notices } := by
    intro u; apply State.ext <;> simp [startExhaustion]
  have hc : (laneTaken (r.frame k) l s).conds = s.conds := laneTaken_conds ..
  obtain ⟨htaken, hres, hlanes, hacc, hctxs, hframe⟩ :=
    refusal_frame (s := s) (k := k) (r := r) (l := l) f (hv (laneTaken (r.frame k) l s))
  refine ⟨htaken, hres, hlanes, hacc, hctxs, by simpa using hframe, fun _ => ⟨?_, ⟨?_, fun d hd => ?_⟩, ?_⟩,
    fun h => absurd rfl h⟩
  · rw [cond_congr (settleClaims_conds _), cond_congr (placeReserved_conds ..), startExhaustion, raise_cond, if_pos rfl,
      cond_congr hc]
    rfl
  · simp [startExhaustion]
  · rw [cond_congr (settleClaims_conds _), cond_congr (placeReserved_conds ..), startExhaustion, raise_cond, if_neg hd,
      cond_congr hc]
  · rw [settleClaims_notices, placeReserved_notices, startExhaustion, raise_notices, noticesAfter_congr hc,
      laneTaken_notices]

/-- The reply a request places is the last frame of the queue, and its outcome the first byte of its payload. -/
theorem reply_outcome {fs : List Frame} {k : Byte} {r : Req} {l : LaneNo} {oc : OutcomeCode} {fields : List Byte}
    {u : State} {gs : List Frame} {f : Frame} {o : Byte} (h : gs ++ [laneReply k r l oc fields u] = fs ++ [f])
    (ho : f.payload.head? = some o) : o = oc.code := by
  have hf := (List.append_inj' h rfl).2
  rw [List.cons.injEq] at hf
  rw [← hf.1] at ho
  exact (Option.some.inj ho).symm

/-- Settles O10: of the ways a lane request is answered, those that place a reply with another outcome than OK leave
the state of the take, but for the raise of CLAIMS_FULL. -/
theorem refusedLaneRequestsChangeNothing : Obligations.RefusedLaneRequestsChangeNothing := by
  intro i k r l s hk hl hr ht
  obtain ⟨body, he, hb⟩ := lane_arm hk hl hr
  have ha : BodyAnswers (laneTaken (r.frame k) l s)
      (laneBody (gateOf k) (laneLength k) r l (body l) (laneTaken (r.frame k) l s)) := laneBody_answers (hb l _)
  rw [he, laneRequest_takes ht]
  refine ⟨_, rfl, fun f o hfs hfk hfo hne => ?_⟩
  generalize laneBody (gateOf k) (laneLength k) r l (body l) (laneTaken (r.frame k) l s) = x at ha hfs ⊢
  cases ha with
  | accepted t fields =>
    rw [answerLane_reply, settleClaims_frames, placeReserved_frames] at hfs
    exact absurd (reply_outcome hfs hfo) hne
  | refused fields ho =>
    rw [answerLane_reply] at hfs ⊢
    rw [settleClaims_frames, placeReserved_frames] at hfs
    rw [reply_outcome hfs hfo]
    exact refused_leaves s k r l _ ho
  | exhausted fields =>
    rw [answerLane_reply] at hfs ⊢
    rw [settleClaims_frames, placeReserved_frames] at hfs
    rw [reply_outcome hfs hfo]
    exact exhausted_leaves s k r l _
  | waits h =>
    rw [answerLane_later, settleClaims_frames, h, laneTaken_frames] at hfs
    simp at hfs
  | streams h hg =>
    rw [answerLane_later, settleClaims_frames, h, laneTaken_frames] at hfs
    have hf := (List.append_inj' hfs rfl).2
    rw [List.cons.injEq] at hf
    rw [← hf.1, hg] at hfk
    exact absurd hfk (laneKind_ne_settle hl)

end Sys2Proof.Machine


/-! What reset leaves (R1, R13, R39, R182): the values of the tables, and the stated laws in the reset state. -/

namespace Sys2Proof.Machine

theorem reset_bank (b : BankNo) : State.reset.bank b = Bank.initial := by revert b; decide

theorem reset_cond (d : CondClass) : State.reset.cond d = Cond.clear := by cases d <;> rfl

theorem reset_queues : InboundBounded State.reset ∧ NoticesDistinct State.reset ∧ HoldsDistinct State.reset ∧
    StartedFirst State.reset ∧ RequestsSound State.reset :=
  ⟨⟨by decide, by decide⟩, List.nodup_nil, List.nodup_nil, fun _ _ => ⟨1, 0, rfl⟩, List.nodup_nil,
    fun h => absurd rfl h⟩

/-- One slot is occupied, by STARTED, and no lane is in QUOTING. -/
theorem reset_slots : SlotsWithin State.reset := by
  have hq : quotingLanes State.reset = [] := by
    rw [quotingLanes, List.filter_eq_nil_iff]
    intro l _
    rw [reset_lane]; decide
  refine ⟨by decide, by rw [hq]; rfl, reset_agree.timers, fun l h => absurd (reset_stream l) h⟩

theorem reset_lines : LinesSound State.reset := by
  intro c
  rw [reset_ctx]
  exact ⟨rfl, rfl, Nat.zero_le _, Nat.zero_le _⟩

theorem reset_tables : ClaimsSound State.reset ∧ AuthoritySound State.reset ∧ AccountsOrdered State.reset := by
  refine ⟨⟨by decide, List.nodup_nil, fun h => ?_⟩, ⟨by decide, List.nodup_nil⟩, List.nodup_nil, fun e he => ?_⟩
  · rw [reset_cond] at h; cases h
  · cases he

theorem reset_banks : BanksSound State.reset := by
  unfold BanksSound
  rw [reset_bank, reset_bank]
  exact ⟨⟨rfl, rfl, rfl, rfl⟩, ⟨rfl, rfl, rfl, rfl⟩, rfl, fun h => absurd h (by decide)⟩

theorem reset_passOvers : PassOversBounded State.reset := by
  intro l
  rw [reset_lane]
  exact Nat.zero_le _

theorem reset_fault : FaultDetailAgrees State.reset := by
  unfold FaultDetailAgrees
  rw [reset_cond]
  rfl

/-- Settles O3: the tables by index, the other values as `State.reset` writes them, and each law in turn. -/
theorem resetLeavesTheDefaultsAndTheInvariants : Obligations.ResetLeavesTheDefaultsAndTheInvariants := by
  obtain ⟨hbounded, hnotices, hholds, hstarted, hrequests⟩ := reset_queues
  obtain ⟨hclaims, hauthority, haccounts⟩ := reset_tables
  have hattn : State.reset.attnLow = false := by
    simp [State.attnLow, reset_cond, Cond.clear]
  exact ⟨reset_lane, reset_ctx, reset_bank, reset_stream, reset_cond, rfl, hattn, rfl, rfl, rfl, rfl, rfl, rfl, rfl,
    rfl, rfl, rfl, rfl, rfl, rfl, rfl, rfl, rfl, rfl, hbounded, hnotices, hholds, hstarted, hrequests, reset_slots,
    reset_lines, (basketsSound_iff _).2 reset_agree, hclaims, hauthority, haccounts, reset_banks, reset_passOvers,
    reset_fault⟩

end Sys2Proof.Machine


/-! The requests of chapter 1 that open, track, total and query a basket (R8, R16 to R18, R21, R22): each by the take
that every request shares, what its body leaves, and the reply. -/

namespace Sys2Proof.Machine

/-! ### Requests on the basket of a lane -/

/-- A request on a basket that the device takes now ends in the answer of its body on the state the take left. -/
theorem basketRequest_takes {s : State} {k : Byte} {r : Req} {l : LaneNo} {c : CtxNo} {a : Attachment} {len : Nat}
    (h : TakesLane s k r l) (hb : OnBasket s l c a) (hl : r.payload.length = len)
    (body : LaneNo → CtxNo → State → State × Answer) :
    laneRequest k gateBasket len r (fun l => onCtx l (body l)) s =
      .next (settleClaims (answerLane k r l (body l c (laneTaken (r.frame k) l s)))) := by
  rw [laneRequest_takes h, laneBody_on _ hb hl]

/-- The reply of a request whose body changes no more of its take than lanes, contexts, accounts and tables that the
reply does not show. -/
theorem LaneAnswered.of_body {s t : State} {k : Byte} {r : Req} {l : LaneNo} {o : OutcomeCode} {fields : List Byte}
    {rev : Counter} (hp : t.pool = (laneTaken (r.frame k) l s).pool) (hd : t.link = (laneTaken (r.frame k) l s).link)
    (hq : t.mainQ = (laneTaken (r.frame k) l s).mainQ) (hr : t.laneRevision l = rev) :
    LaneAnswered s (settleClaims (placeReserved (laneReply k r l o fields t) t)) k r o rev fields :=
  laneAnswered_of hp (by rw [hd]) hq hr

/-- The frame of a request whose body leaves `t`, where `s'` is the state before with what else the request changes. -/
theorem laneFrame_body {s s' t : State} {k : Byte} {r : Req} {l : LaneNo} (f : Frame)
    (ht : t = { s' with
      pool := t.pool, link := t.link, mainQ := t.mainQ, draws := t.draws, lanes := t.lanes, ctxs := t.ctxs
      accounts := t.accounts })
    (hd : t.link = (laneTaken (r.frame k) l s).link) (hq : t.mainQ = (laneTaken (r.frame k) l s).mainQ)
    (hn : t.draws = s.draws) (hl' : s'.link = s.link) (hq' : s'.mainQ = s.mainQ) (hn' : s'.draws = s.draws) :
    LaneFrame s' (settleClaims (placeReserved f t)) := by
  refine laneFrame_settled ?_ ?_ ?_ (by rw [hn']; exact hn)
  · have hlink : t.link = { s'.link with deviceHolds := t.link.deviceHolds } := by
      rw [hd, hl']; exact laneTaken_link ..
    apply State.ext <;> simp
    case link => exact hlink
    all_goals rw [ht]
  · show t.mainQ.requests = _
    rw [hq, hq']; exact laneTaken_requests ..
  · show t.mainQ.served = _
    rw [hq, hq']; exact laneTaken_served ..

/-! ### QUERY_BASKET (R22) -/

theorem reservation_congr {s t : State} (h : t.accounts = s.accounts) (c : CtxNo) :
    t.reservation c = s.reservation c := by
  unfold State.reservation; rw [h]

/-- A timer restarted leaves the points a context has reserved (R125). -/
theorem reserved_restarted (s : State) (c d : CtxNo) : (restartReservation c s).reserved d = s.reserved d := by
  have hr : (restartReservation c s).reservation d = (s.reservation d).map fun r =>
      if r.ctx == c then { r with expires := s.after (s.config.reservationLifetime * 1000) } else r := by
    simp only [State.reservation, restartReservation, List.findSome?_map, Function.comp_def, List.find?_map,
      List.map_findSome?]
    congr 1
    funext e
    congr 2
    funext r
    split <;> rfl
  unfold State.reserved
  rw [hr]
  cases s.reservation d with
  | none => rfl
  | some r => simp only [Option.map_some]; split <;> rfl

theorem laneTaken_reserved_points {f : Frame} {l : LaneNo} {s : State} {c : CtxNo} (h : (s.lane l).ctx = some c)
    (d : CtxNo) : (laneTaken f l s).reserved d = s.reserved d := by
  rw [← reserved_restarted s c d]
  unfold State.reserved
  rw [reservation_congr (laneTaken_accounts h)]

theorem Context.attachment_attached {x : Context} {a : Attachment} (h : x.place = .attached a) :
    x.attachment = some a := by
  unfold Context.attachment; rw [h]

/-- A request on a basket whose body answers from the state the take left: reply, baskets, timers and frame. -/
theorem answered_on {s : State} {l : LaneNo} {c : CtxNo} {a : Attachment} (hb : OnBasket s l c a) (k : Byte) (r : Req)
    (o : OutcomeCode) (fields : List Byte) :
    ∃ t, Host.Outcome.next (φ := Fault) (ρ := Refusal)
        (settleClaims (answerLane k r l (laneTaken (r.frame k) l s, .reply o fields))) = .next t ∧
      LaneAnswered s t k r o (s.ctx c).revision fields ∧ t.ctxs = s.ctxs ∧ t.lane l = watched s l ∧
      OtherLanesKept s t l ∧ t.accounts = accountsTouched s c ∧ LaneFrame s t := by
  obtain ⟨hst, hc, -⟩ := hb
  obtain ⟨t, he, ha, hl, hacc, hctxs, hf⟩ := refused_taken s k r l o fields
  have hrev : s.laneRevision l = (s.ctx c).revision := by simp [State.laneRevision, hc]
  rw [hrev] at ha
  refine ⟨t, he, ha, hctxs, ?_, fun m hm => ?_, ?_, hf⟩
  · rw [lane_congr hl, touchIdle_lane_on hst, if_pos rfl]
  · rw [lane_congr hl, touchIdle_lane_on hst, if_neg hm]
  · rw [hacc]; simp [touchReservation, hc, accountsTouched]

/-- Settles O16: both answers come from the state the take left, in which the basket and its points are as before. -/
theorem queryBasketReportsAndChangesNothing : Obligations.QueryBasketReportsAndChangesNothing := by
  intro s r l c a ht hb hlen
  have he := basketRequest_takes ht hb hlen (fun _ => queryBasketBody r.payload)
  refine ⟨fun hf => ?_, fun hf => ?_⟩
  · have hbody : queryBasketBody r.payload c (laneTaken (r.frame 0x13) l s) =
        (laneTaken (r.frame 0x13) l s,
          .reply .ok (queryFields c (laneTaken (r.frame 0x13) l s) (field r.payload 0 1))) :=
      if_pos hf
    rw [hbody] at he
    obtain ⟨t, ht', ha, hrest⟩ := answered_on hb 0x13 r .ok
      (queryFields c (laneTaken (r.frame 0x13) l s) (field r.payload 0 1))
    refine ⟨t, he.trans ht', ?_, hrest⟩
    have hatt := Context.attachment_attached hb.2.2.1
    simp only [queryFields, laneTaken_ctx, hatt, laneTaken_reserved_points hb.2.1] at ha
    exact ha
  · have hbody : queryBasketBody r.payload c (laneTaken (r.frame 0x13) l s) =
        (laneTaken (r.frame 0x13) l s, badField 0 0) := if_neg (by omega)
    rw [hbody] at he
    obtain ⟨t, ht', hrest⟩ := answered_on hb 0x13 r .badField [0, 0]
    exact ⟨t, he.trans ht', hrest⟩

/-! ### SET_TRACKING (R21) -/

theorem trackingOf_above {n : Nat} (h : 1 < n) : trackingOf n = none := by
  simp [trackingOf, show n ≠ 0 by omega, show n ≠ 1 by omega]

theorem Context.withTracking_attached {x : Context} {a : Attachment} (h : x.place = .attached a) (m : Tracking) :
    x.withTracking m = { x with place := .attached { a with tracking := m } } := by
  unfold Context.withTracking; rw [h]

theorem leaveWaiting_sched (l : LaneNo) (s : State) : (leaveWaiting l s).sched = agedWithout s l := by
  have hf : s.sched.aged.filter (· != l) = s.sched.aged.filter fun m => m ≠ l :=
    List.filter_congr fun m _ => by by_cases h : m = l <;> simp [h]
  show { s.sched with aged := s.sched.aged.filter (· != l) } = _
  rw [hf]
  rfl

/-- SET_TRACKING to TRACKING as one write of the context and one of the lane. -/
theorem setTrackingBody_tracking {p : List Byte} {l : LaneNo} {c : CtxNo} {a : Attachment} {u : State}
    (hp : field p 0 1 = 1) (ha : (u.ctx c).place = .attached a) :
    setTrackingBody p l c u =
      ((u.setCtx c { u.ctx c with
          place := .attached { a with tracking := .tracking }
          wanted := (u.ctx c).wanted || (u.ctx c).quote.isNone }).setLane l { u.lane l with tracking := .tracking },
        .reply .ok [1]) := by
  have ha : (u.ctxs.get c).place = .attached a := ha
  simp [setTrackingBody, hp, trackingOf, Context.withTracking_attached ha, State.setCtx, State.setLane, State.ctx,
    State.lane, get_set_same, Tracking.code]

/-- SET_TRACKING to ON_DEMAND as one write of the context, one of the lane and the lane off the aged list. -/
theorem setTrackingBody_onDemand {p : List Byte} {l : LaneNo} {c : CtxNo} {a : Attachment} {u : State}
    (hp : field p 0 1 = 0) (ha : (u.ctx c).place = .attached a) :
    setTrackingBody p l c u =
      ({ (u.setCtx c { u.ctx c with
          place := .attached { a with tracking := .onDemand }, wanted := false }).setLane l
          { u.lane l with tracking := .onDemand, subtotalOwed := false, passOver := 0 } with
          sched := agedWithout u l },
        .reply .ok [0]) := by
  have hs := leaveWaiting_sched l u
  simp only [leaveWaiting, setLane_sched] at hs
  have ha : (u.ctxs.get c).place = .attached a := ha
  simp [setTrackingBody, hp, trackingOf, Context.withTracking_attached ha, leaveWaiting, State.setCtx, State.setLane,
    State.ctx, State.lane, get_set_same, Tracking.code, hs]

/-- What the body of a request on lane `l` with context `c` leaves of its take: `v` has the context `x` and the lane
record `y` written, and is in the other tables as `s'` is, which is `s` with what else the request changes. -/
structure BodyWrote (s s' v : State) (k : Byte) (r : Req) (l : LaneNo) (c : CtxNo) (x : Context) (y : Lane) : Prop where
  ctxs : v.ctxs = ((laneTaken (r.frame k) l s).setCtx c x).ctxs
  lanes : v.lanes = ((laneTaken (r.frame k) l s).setLane l y).lanes
  pool : v.pool = (laneTaken (r.frame k) l s).pool
  link : v.link = (laneTaken (r.frame k) l s).link
  mainQ : v.mainQ = (laneTaken (r.frame k) l s).mainQ
  draws : v.draws = s.draws
  rest : v = { s' with
    pool := v.pool, link := v.link, mainQ := v.mainQ, draws := v.draws, lanes := v.lanes, ctxs := v.ctxs
    accounts := v.accounts }
  link' : s'.link = s.link
  mainQ' : s'.mainQ = s.mainQ
  draws' : s'.draws = s.draws

/-- A body that writes its context and its lane and nothing else. -/
theorem bodyWrote_setCtx_setLane (s : State) (k : Byte) (r : Req) (l : LaneNo) (c : CtxNo) (x : Context) (y : Lane) :
    BodyWrote s s (((laneTaken (r.frame k) l s).setCtx c x).setLane l y) k r l c x y :=
  ⟨by simp, by simp [State.setLane], by simp, by simp, by simp, by simp, by apply State.ext <;> simp, rfl, rfl, rfl⟩

/-- A body that writes its context, its lane and the scheduler. -/
theorem bodyWrote_sched (s : State) (k : Byte) (r : Req) (l : LaneNo) (c : CtxNo) (x : Context) (y : Lane)
    (d : Scheduler) : BodyWrote s { s with sched := d }
      { ((laneTaken (r.frame k) l s).setCtx c x).setLane l y with sched := d } k r l c x y :=
  ⟨by simp, by simp [State.setLane], by simp, by simp, by simp, by simp, by apply State.ext <;> simp, rfl, rfl, rfl⟩

section
variable {s s' v : State} {k : Byte} {r : Req} {l : LaneNo} {c : CtxNo} {x : Context} {y : Lane}

theorem BodyWrote.ctx (h : BodyWrote s s' v k r l c x y) (d : CtxNo) : v.ctx d = if d = c then x else s.ctx d := by
  rw [ctx_congr h.ctxs, ctx_setCtx, laneTaken_ctx]

theorem BodyWrote.ctx_same (h : BodyWrote s s' v k r l c x y) : v.ctx c = x := by rw [h.ctx, if_pos rfl]

theorem BodyWrote.lane_same (h : BodyWrote s s' v k r l c x y) : v.lane l = y := by
  rw [lane_congr h.lanes, lane_setLane_same]

theorem BodyWrote.lane_ne (h : BodyWrote s s' v k r l c x y) {m : LaneNo} (hm : m ≠ l) : v.lane m = s.lane m := by
  rw [lane_congr h.lanes, lane_setLane_ne _ _ hm, lane_congr (laneTaken_lanes ..), touchIdle_lane_ne s hm]

/-- A reply placed after a body that writes its context, its lane and what `s'` shows of the other tables. -/
theorem BodyWrote.answered (h : BodyWrote s s' v k r l c x y) {rev : Counter} (hrev : v.laneRevision l = rev)
    (o : OutcomeCode) (fields : List Byte) :
    ∃ t, Host.Outcome.next (φ := Fault) (ρ := Refusal)
        (settleClaims (answerLane k r l (v, .reply o fields))) = .next t ∧
      LaneAnswered s t k r o rev fields ∧ t.ctx c = x ∧ t.lane l = y ∧ OtherContextsKept s t c ∧
      OtherLanesKept s t l ∧ t.accounts = v.accounts ∧ LaneFrame s' t := by
  rw [answerLane_reply]
  refine ⟨_, rfl, LaneAnswered.of_body h.pool h.link h.mainQ hrev, ?_, ?_, fun d hd => ?_, fun m hm => ?_, by simp,
    laneFrame_body _ h.rest h.link h.mainQ h.draws h.link' h.mainQ' h.draws'⟩
  · rw [ctx_congr (s := v) (by simp), h.ctx_same]
  · rw [lane_congr (s := v) (by simp), h.lane_same]
  · rw [ctx_congr (s := v) (by simp), h.ctx, if_neg hd]
  · rw [lane_congr (s := v) (by simp), h.lane_ne hm]

/-- A body that answers later: the slot of its take stays reserved (R5, R142). -/
theorem BodyWrote.later (h : BodyWrote s s' v k r l c x y) :
    FrameTaken .pool (r.frame k) s (settleClaims v) ∧ (settleClaims v).mainQ.frames = s.mainQ.frames ∧
      (settleClaims v).mainQ.reserved = s.mainQ.reserved + 1 ∧ (settleClaims v).ctx c = x ∧
      (settleClaims v).lane l = y ∧ OtherContextsKept s (settleClaims v) c ∧ OtherLanesKept s (settleClaims v) l ∧
      (settleClaims v).accounts = v.accounts ∧ LaneFrame s' (settleClaims v) := by
  refine ⟨(laneTaken_taken (r.frame k) l s).congr (by simp [State.inbound, h.pool]) (by simp [h.link]),
    by simp [h.mainQ], by simp [h.mainQ], ?_, ?_, fun d hd => ?_, fun m hm => ?_, by simp,
    laneFrame_settled ?_ ?_ ?_ ?_⟩
  · rw [ctx_congr (settleClaims_ctxs v), h.ctx_same]
  · rw [lane_congr (settleClaims_lanes v), h.lane_same]
  · rw [ctx_congr (settleClaims_ctxs v), h.ctx, if_neg hd]
  · rw [lane_congr (settleClaims_lanes v), h.lane_ne hm]
  · have hlink : v.link = { s'.link with deviceHolds := v.link.deviceHolds } := by
      rw [h.link, h.link']; exact laneTaken_link ..
    rw [← hlink]
    exact h.rest
  · rw [h.mainQ, h.mainQ']; exact laneTaken_requests ..
  · rw [h.mainQ, h.mainQ']; exact laneTaken_served ..
  · rw [h.draws, h.draws']

theorem BodyWrote.laneRevision (h : BodyWrote s s' v k r l c x y) (hy : y.ctx = some c) :
    v.laneRevision l = x.revision := by
  simp [State.laneRevision, h.lane_same, hy, h.ctx_same]

end

/-- Settles O14: the two modes by the branch of the body, with the records it writes. -/
theorem setTrackingSetsBothModes : Obligations.SetTrackingSetsBothModes := by
  intro s r l c a ht hb hlen
  have he := basketRequest_takes ht hb hlen (setTrackingBody r.payload)
  have hlane : (laneTaken (r.frame 0x0D) l s).lane l = watched s l := by rw [laneTaken_lane_on hb.1, if_pos rfl]
  have hctx : (laneTaken (r.frame 0x0D) l s).ctx c = s.ctx c := laneTaken_ctx ..
  have hsched : agedWithout (laneTaken (r.frame 0x0D) l s) l = agedWithout s l := by simp [agedWithout]
  obtain ⟨-, hc, hp, -⟩ := id hb
  have hacc : (laneTaken (r.frame 0x0D) l s).accounts = accountsTouched s c := laneTaken_accounts hc
  refine ⟨fun hf => ?_, fun hf => ?_, fun hf => ?_⟩
  · have hbody : setTrackingBody r.payload l c (laneTaken (r.frame 0x0D) l s) =
        (laneTaken (r.frame 0x0D) l s, badField 0 0) := by
      simp only [setTrackingBody, trackingOf_above hf]
    rw [hbody] at he
    obtain ⟨t, ht', hrest⟩ := answered_on hb 0x0D r .badField [0, 0]
    exact ⟨t, he.trans ht', hrest⟩
  · rw [setTrackingBody_tracking hf (hctx ▸ hp), hlane, hctx] at he
    have hw := bodyWrote_setCtx_setLane s 0x0D r l c
      { s.ctx c with
        place := .attached { a with tracking := .tracking }, wanted := (s.ctx c).wanted || (s.ctx c).quote.isNone }
      { watched s l with tracking := .tracking }
    obtain ⟨t, ht', ha, hx, hy, hco, hlo, hta, hf⟩ := hw.answered (hw.laneRevision hc) .ok [1]
    exact ⟨t, he.trans ht', ha, hx, hy, hco, hlo, hta.trans (by simpa using hacc), hf⟩
  · rw [setTrackingBody_onDemand hf (hctx ▸ hp), hlane, hctx, hsched] at he
    have hw := bodyWrote_sched s 0x0D r l c
      { s.ctx c with place := .attached { a with tracking := .onDemand }, wanted := false }
      { watched s l with tracking := .onDemand, subtotalOwed := false, passOver := 0 } (agedWithout s l)
    obtain ⟨t, ht', ha, hx, hy, hco, hlo, hta, hf⟩ := hw.answered (hw.laneRevision hc) .ok [0]
    exact ⟨t, he.trans ht', ha, hx, hy, hco, hlo, hta.trans (by simpa using hacc), hf⟩

/-! ### TOTAL (R8) -/

/-- TOTAL without a quote as one write of the context and one of the lane. -/
theorem totalBody_waits {tag : Byte} {l : LaneNo} {c : CtxNo} {u : State} (h : (u.ctx c).quote = none) :
    totalBody tag l c u =
      ((u.setCtx c { u.ctx c with wanted := true }).setLane l
        { u.lane l with state := .quoting, idleStage := 0, idleTimer := none, quoteTag := tag }, .later) := by
  unfold totalBody
  rw [h]
  simp [stopIdle, State.setCtx, State.setLane, State.lane, get_set_same]

theorem ctxs_ext {s t : State} (h : ∀ c, t.ctx c = s.ctx c) : t.ctxs = s.ctxs :=
  Vector.ext fun i hi => h ⟨i, hi⟩

/-- A write of a context as it is. -/
theorem setCtx_self (u : State) (c : CtxNo) : u.setCtx c (u.ctx c) = u := by
  apply State.ext <;> simp [State.setCtx, State.ctx, Vector.get]

/-- Settles O15: the stored quote answers at once, and without one the take's slot stays reserved. -/
theorem totalAnswersAtOnceOrWaits : Obligations.TotalAnswersAtOnceOrWaits := by
  intro s r l c a ht hb hlen
  have he := basketRequest_takes ht hb (len := 0) (by rw [hlen]; rfl) (totalBody r.tag)
  have hlane : (laneTaken (r.frame 0x0E) l s).lane l = watched s l := by rw [laneTaken_lane_on hb.1, if_pos rfl]
  have hctx : (laneTaken (r.frame 0x0E) l s).ctx c = s.ctx c := laneTaken_ctx ..
  have hc := hb.2.1
  have hacc : (laneTaken (r.frame 0x0E) l s).accounts = accountsTouched s c := laneTaken_accounts hc
  refine ⟨fun q hq => ?_, fun hq => ?_⟩
  · have hbody : totalBody r.tag l c (laneTaken (r.frame 0x0E) l s) =
        (((laneTaken (r.frame 0x0E) l s).setCtx c (s.ctx c)).setLane l
          { watched s l with state := .totalled, subtotalOwed := false }, .reply .ok (quoteFields c q)) := by
      rw [← hctx, setCtx_self, ← hlane]
      simp only [totalBody, hctx, hq]
    rw [hbody] at he
    have hw := bodyWrote_setCtx_setLane s 0x0E r l c (s.ctx c)
      { watched s l with state := .totalled, subtotalOwed := false }
    obtain ⟨t, ht', ha, hx, hy, hco, hlo, hta, hf⟩ := hw.answered (hw.laneRevision hc) .ok (quoteFields c q)
    refine ⟨t, he.trans ht', by simpa [quoteFields] using ha, ?_, hy, hlo, hta.trans (by simpa using hacc), hf⟩
    exact ctxs_ext fun d => if hd : d = c then hd ▸ hx else hco d hd
  · rw [totalBody_waits (hctx ▸ hq), hctx, hlane, answerLane_later] at he
    have hw := bodyWrote_setCtx_setLane s 0x0E r l c { s.ctx c with wanted := true }
      { watched s l with state := .quoting, idleStage := 0, idleTimer := none, quoteTag := r.tag }
    obtain ⟨htaken, hfs, hres, hx, hy, hco, hlo, hta, hf⟩ := hw.later
    exact ⟨_, he, htaken, hfs, hres, hx, hco, hy, hlo, hta.trans (by simpa using hacc), hf⟩

end Sys2Proof.Machine


/-! OPEN_BASKET (R16 to R18): the lowest FREE context, the pin on the CURRENT bank and the lane opened. -/

namespace Sys2Proof.Machine

theorem allCtxs_eq : allCtxs = List.finRange 12 := by decide

theorem Context.isFree_iff (x : Context) : x.isFree = true ↔ x.place = .free := by
  unfold Context.isFree
  cases x.place <;> simp

theorem State.freeContext_none {s : State} (h : ∀ c, (s.ctx c).place ≠ .free) : s.freeContext = none := by
  unfold State.freeContext
  rw [List.find?_eq_none]
  intro c _
  rw [Context.isFree_iff]
  exact h c

/-- The context OPEN_BASKET takes is FREE, and none below it is (R16). -/
theorem State.freeContext_lowest {s : State} {c : CtxNo} (hc : (s.ctx c).place = .free)
    (hlow : ∀ d, d < c → (s.ctx d).place ≠ .free) : s.freeContext = some c := by
  unfold State.freeContext
  rw [allCtxs_eq, List.find?_eq_some_iff_getElem]
  refine ⟨(Context.isFree_iff _).2 hc, c, by simp, by simp, fun j hj => ?_⟩
  have hd : (List.finRange 12)[j]'(by simp; omega) < c := by simpa [Fin.lt_def] using hj
  simp only [Bool.not_eq_true', ← Bool.not_eq_true, Context.isFree_iff]
  exact hlow _ hd

theorem startIdle_zero (l : LaneNo) (s : State) :
    startIdle 0 l s = s.setLane l { s.lane l with idleStage := 0, idleTimer := idleStart s } := by
  unfold startIdle idleStart State.after
  split <;> rfl

/-- The basket opened, as one write of the context, one of the lane and one of the banks. -/
theorem openIn_eq (l : LaneNo) (c : CtxNo) (b : BankNo) (u : State) :
    openIn l c b u =
      ({ (u.setCtx c ((u.ctx c).allocated
            { lane := l, tracking := (u.lane l).tracking, bank := b, generation := (u.bank b).generation
              day := u.device.day })).setLane l
            { u.lane l with
              state := .opened, ctx := some c, idleStage := 0, idleTimer := idleStart u } with
          banks := (pinBank b u).banks },
        .reply .ok (openFields c ((u.ctx c).allocated
            { lane := l, tracking := (u.lane l).tracking, bank := b, generation := (u.bank b).generation
              day := u.device.day })
          { lane := l, tracking := (u.lane l).tracking, bank := b, generation := (u.bank b).generation
            day := u.device.day })) := by
  simp [openIn, startIdle_zero, idleStart, pinBank, State.setLane, State.lane, get_set_same, State.setBank,
    State.setCtx, State.bank]

/-- A body that writes its context, its lane and the banks. -/
theorem bodyWrote_banks (s : State) (k : Byte) (r : Req) (l : LaneNo) (c : CtxNo) (x : Context) (y : Lane)
    (d : Vector Bank 2) : BodyWrote s { s with banks := d }
      { ((laneTaken (r.frame k) l s).setCtx c x).setLane l y with banks := d } k r l c x y :=
  ⟨by simp, by simp [State.setLane], by simp, by simp, by simp, by simp, by apply State.ext <;> simp, rfl, rfl, rfl⟩

theorem openBody_unloaded {l : LaneNo} {u : State} (h : u.device.serving = false) :
    openBody l u = (u, .reply .notReady []) := by
  simp [openBody, h]

theorem openBody_full {l : LaneNo} {u : State} (h : u.device.serving = true) (hc : u.freeContext = none) :
    openBody l u = (u, .reply .noContext []) := by
  simp [openBody, h, hc]

theorem openBody_opens {l : LaneNo} {c : CtxNo} {b : BankNo} {u : State} (h : u.device.serving = true)
    (hc : u.freeContext = some c) (hb : u.currentBank = some b) : openBody l u = openIn l c b u := by
  simp [openBody, h, hc, hb]

theorem freeContext_congr {s t : State} (h : t.ctxs = s.ctxs) : t.freeContext = s.freeContext := by
  unfold State.freeContext
  simp only [ctx_congr h]

theorem pinBank_banks_congr {s t : State} (b : BankNo) (h : t.banks = s.banks) :
    (pinBank b t).banks = (pinBank b s).banks := by
  simp only [pinBank, State.setBank, bank_congr h, h]

theorem currentBank_congr {s t : State} (h : t.banks = s.banks) : t.currentBank = s.currentBank := by
  unfold State.currentBank State.bankIn
  simp only [bank_congr h]

/-- OPEN_BASKET taken on an IDLE lane ends in the answer of its body. -/
theorem openRequest_takes {s : State} {r : Req} {l : LaneNo} (h : TakesLane s 0x01 r l)
    (hs : (s.lane l).state = .idle) (hl : r.payload = []) :
    exec (.openBasket r) s = .next (settleClaims (answerLane 0x01 r l
      (openBody l (laneTaken (r.frame 0x01) l s)))) := by
  show laneRequest 0x01 gateIdle 0 r openBody s = _
  rw [laneRequest_takes h, laneBody_body (by simp [hs]) (by rw [laneTaken_state, hs]; rfl) (by rw [hl]; rfl)]

/-- A refusal of OPEN_BASKET on an IDLE lane. -/
theorem openRequest_refused {s : State} (r : Req) {l : LaneNo} (hs : (s.lane l).state = .idle) (o : OutcomeCode) :
    ∃ t, Host.Outcome.next (φ := Fault) (ρ := Refusal)
        (settleClaims (answerLane 0x01 r l (laneTaken (r.frame 0x01) l s, .reply o []))) = .next t ∧
      LaneAnswered s t 0x01 r o (s.laneRevision l) [] ∧ t.lanes = s.lanes ∧ t.ctxs = s.ctxs ∧
      t.accounts = (touchReservation l s).accounts ∧ LaneFrame s t := by
  obtain ⟨t, he, ha, hl, hacc, hc, hf⟩ := refused_taken s 0x01 r l o []
  rw [touchIdle_off (by rw [hs]; decide) (by rw [hs]; decide)] at hl
  exact ⟨t, he, ha, hl, hc, hacc, hf⟩

/-- Settles O13: the three answers of the body, and for the basket opened the records it writes. -/
theorem openBasketAllocatesTheLowestFreeContext : Obligations.OpenBasketAllocatesTheLowestFreeContext := by
  intro s r l ht hs hp
  have he := openRequest_takes ht hs hp
  have hctxs : (laneTaken (r.frame 0x01) l s).ctxs = s.ctxs := by simp
  refine ⟨fun hu => ?_, fun hsv hfull => ?_, fun c b hsv hc hlow hb => ?_⟩
  · rw [openBody_unloaded (by simpa using hu)] at he
    obtain ⟨t, ht', hrest⟩ := openRequest_refused r hs .notReady
    exact ⟨t, he.trans ht', hrest⟩
  · rw [openBody_full (by simpa using hsv) (by rw [freeContext_congr hctxs, State.freeContext_none hfull])] at he
    obtain ⟨t, ht', hrest⟩ := openRequest_refused r hs .noContext
    exact ⟨t, he.trans ht', hrest⟩
  · have hlane : ∀ m, (laneTaken (r.frame 0x01) l s).lane m = s.lane m :=
      lane_congr (laneTaken_lanes_off (by rw [hs]; decide) (by rw [hs]; decide))
    have hbank : ∀ d, (laneTaken (r.frame 0x01) l s).bank d = s.bank d := bank_congr (by simp)
    have hidle : idleStart (laneTaken (r.frame 0x01) l s) = idleStart s := by simp [idleStart]
    have hpin : (pinBank b (laneTaken (r.frame 0x01) l s)).banks = (pinBank b s).banks :=
      pinBank_banks_congr b (by simp)
    rw [openBody_opens (by simpa using hsv) (by rw [freeContext_congr hctxs, State.freeContext_lowest hc hlow])
      (by rw [currentBank_congr (s := s) (by simp), hb]), openIn_eq, hlane, hbank, laneTaken_ctx, laneTaken_device,
      hidle, hpin] at he
    have hw := bodyWrote_banks s 0x01 r l c ((s.ctx c).allocated
        { lane := l, tracking := (s.lane l).tracking, bank := b, generation := (s.bank b).generation
          day := s.device.day })
      { s.lane l with state := .opened, ctx := some c, idleStage := 0, idleTimer := idleStart s } (pinBank b s).banks
    obtain ⟨t, ht', ha, hx, hy, hco, hlo, hta, hf⟩ := hw.answered (hw.laneRevision rfl) .ok _
    have htb : t.banks = (pinBank b s).banks := by rw [hf.1]
    refine ⟨t, he.trans ht', ha, hx, hco, hy, hlo, ?_, fun d hd => ?_, ?_, by rw [htb]; exact hf⟩
    · rw [bank_congr htb, pinBank, bank_setBank_same]
    · rw [bank_congr htb, pinBank, bank_setBank_ne _ _ hd]
    · exact hta.trans (by simpa using laneTaken_accounts_eq (r.frame 0x01) l s)

end Sys2Proof.Machine


/-! VOID_BASKET (R19, R20): what the basket holds outside its context given back, the context freed and the lane
vacated. -/

namespace Sys2Proof.Machine

/-! ### Claims (R91, R100) -/

theorem ClaimEntry.ownedBy_iff (s : State) (c : CtxNo) (e : ClaimEntry) :
    e.ownedBy s c = true ↔ e.state = .claimed c (s.ctx c).incarnation := by
  simp [ClaimEntry.ownedBy]

theorem removeClaimsOf_claims (c : CtxNo) (s : State) : (removeClaimsOf c s).claims =
    s.claims.filter fun e => e.state ≠ .claimed c (s.ctx c).incarnation := by
  have hp : (s.claims.filter fun e => !e.ownedBy s c) =
      s.claims.filter fun e => e.state ≠ .claimed c (s.ctx c).incarnation :=
    List.filter_congr fun e _ => by
      rw [Bool.eq_iff_iff, Bool.not_eq_true', ← Bool.not_eq_true, ClaimEntry.ownedBy_iff, decide_eq_true_iff]
  unfold removeClaimsOf removeClaims
  dsimp only
  split <;> simp [hp]

/-- With a claim of the context CLAIMS_FULL goes (R91). -/
theorem removeClaimsOf_conds (c : CtxNo) (s : State) : (removeClaimsOf c s).conds =
    if ∃ e ∈ s.claims, e.state = .claimed c (s.ctx c).incarnation then (endExhaustion s).conds else s.conds := by
  have hp : (s.claims.any (ClaimEntry.ownedBy s c) = true) ↔
      ∃ e ∈ s.claims, e.state = .claimed c (s.ctx c).incarnation := by
    rw [List.any_eq_true]
    simp only [ClaimEntry.ownedBy_iff]
  unfold removeClaimsOf removeClaims
  dsimp only
  by_cases h : ∃ e ∈ s.claims, e.state = .claimed c (s.ctx c).incarnation
  · rw [if_pos (hp.2 h), if_pos h]; rfl
  · rw [if_neg fun hn => h (hp.1 hn), if_neg h]

@[simp] theorem removeClaimsOf_mask (c : CtxNo) (s : State) : (removeClaimsOf c s).conds.mask = s.conds.mask := by
  rw [removeClaimsOf_conds]
  split <;> rfl

theorem removeClaimsOf_cond_ne (c : CtxNo) (s : State) {d : CondClass} (h : d ≠ .claimsFull) :
    (removeClaimsOf c s).cond d = s.cond d := by
  have hc := removeClaimsOf_conds c s
  split at hc
  · rw [cond_congr hc]; exact cond_setCond_ne _ _ h
  · rw [cond_congr hc]

/-! ### Bank pins (R53, R54) -/

theorem PinReleased.congr {s u v t : State} {b : BankNo} (h : PinReleased u v b) (hub : u.banks = s.banks)
    (huc : u.cond .bankDrained = s.cond .bankDrained) (hvb : t.banks = v.banks) (hvc : t.conds = v.conds) :
    PinReleased s t b := by
  simpa only [PinReleased, bank_congr hub, huc, bank_congr hvb, cond_congr hvc] using h

/-- What `PinReleased` says of a release of a pin. -/
theorem releasePin_releases (b : BankNo) (s : State) : PinReleased s (releasePin b s) b := by
  refine ⟨fun d hd => ?_, fun h => ⟨?_, ?_⟩, fun h => ⟨?_, ?_⟩⟩
  · unfold releasePin
    dsimp only
    split
    · rw [bank_congr (raise_banks ..), bank_setBank_ne _ _ hd]
    · exact bank_setBank_ne _ _ hd
  · rw [releasePin, if_pos h, bank_congr (raise_banks ..), bank_setBank_same]; rfl
  · rw [releasePin, if_pos h, raise_cond, if_pos rfl]; rfl
  · rw [releasePin, if_neg h, bank_setBank_same]
  · rw [releasePin, if_neg h]; rfl

theorem releasePin_cond_ne (b : BankNo) (s : State) {d : CondClass} (h : d ≠ .bankDrained) :
    (releasePin b s).cond d = s.cond d := by
  unfold releasePin
  dsimp only
  split
  · rw [raise_cond, if_neg h]; rfl
  · rfl

@[simp] theorem releasePin_mask (b : BankNo) (s : State) : (releasePin b s).conds.mask = s.conds.mask := by
  unfold releasePin
  dsimp only
  split <;> simp

theorem releasePin_notices (b : BankNo) (s : State) : (releasePin b s).notices = drainNotices s b := by
  unfold releasePin drainNotices
  dsimp only
  split
  · rw [raise_notices]; rfl
  · rfl

/-! ### The account table (R116, R117) -/

/-- In a list with distinct keys, what a search by key finds of a sublist is what it finds of the list, if that is in
the sublist. -/
theorem find?_filter_of_nodup {L : List AccountEntry} (h : (L.map (·.id)).Nodup) (q : AccountEntry → Bool) (j : Nat) :
    (L.filter q).find? (·.id == j) = (L.find? (·.id == j)).filter q := by
  induction L with
  | nil => rfl
  | cons e L ih =>
    rw [List.map_cons, List.nodup_cons] at h
    obtain ⟨hne, hnd⟩ := h
    by_cases hj : e.id = j
    · have hnone : (L.filter q).find? (·.id == j) = none := by
        rw [List.find?_eq_none]
        intro x hx hxj
        exact hne (List.mem_map.2 ⟨x, (List.mem_filter.1 hx).1, by simpa [hj] using hxj⟩)
      cases hq : q e <;> simp [hj, hq, hnone, Option.filter]
    · cases hq : q e <;> simp [hj, hq, ih hnd]

theorem removeReservation_accounts (c : CtxNo) (s : State) :
    (removeReservation c s).accounts = s.accounts.map (withoutHold c) := by
  have hf : ∀ e : AccountEntry, (e.reservations.filter fun d => d.ctx != c) =
      e.reservations.filter fun d => d.ctx ≠ c := fun e =>
    List.filter_congr fun d _ => by by_cases h : d.ctx = c <;> simp [h]
  simp only [removeReservation, hf]
  rfl

/-- A timer restarted does not matter to an entry that loses the reservation. -/
theorem withoutHold_restarted (c : CtxNo) (n : Nat) (e : AccountEntry) :
    withoutHold c { e with reservations := e.reservations.map fun d =>
      if d.ctx == c then { d with expires := n } else d } = withoutHold c e := by
  simp only [withoutHold, AccountEntry.mk.injEq, true_and]
  induction e.reservations with
  | nil => rfl
  | cons d L ih => by_cases h : d.ctx = c <;> simpa [h] using ih

theorem withoutHold_touched (c : CtxNo) (s : State) :
    (accountsTouched s c).map (withoutHold c) = s.accounts.map (withoutHold c) := by
  simp only [accountsTouched, restartReservation, List.map_map]
  exact List.map_congr_left fun e _ => withoutHold_restarted c _ e

/-- A search by id in a table whose entries are changed under their ids. -/
theorem find?_map_id {g : AccountEntry → AccountEntry} (h : ∀ e, (g e).id = e.id) (L : List AccountEntry) (j : Nat) :
    (L.map g).find? (·.id == j) = (L.find? (·.id == j)).map g := by
  simp only [List.find?_map, Function.comp_def, h]

/-- A reference dropped in a table of distinct accounts. -/
theorem dropReference_account {s : State} (h : (s.accounts.map (·.id)).Nodup) (id j : Nat) :
    (dropReference id s).account j = (s.account j).bind fun e =>
      if id = j then if e.refs ≤ 1 then none else some { e with refs := e.refs - 1 } else some e := by
  have hid : ∀ e : AccountEntry, (if e.id == id then { e with refs := e.refs - 1 } else e).id = e.id := by
    intro e; split <;> rfl
  have hnd : ((s.accounts.map fun e => if e.id == id then { e with refs := e.refs - 1 } else e).map (·.id)).Nodup := by
    simpa only [List.map_map, Function.comp_def, hid] using h
  unfold dropReference State.account
  rw [find?_filter_of_nodup hnd, find?_map_id hid]
  cases hf : s.accounts.find? (·.id == j) with
  | none => rfl
  | some e =>
    have hj : e.id = j := by simpa using List.find?_some hf
    subst hj
    by_cases hi : e.id = id
    · by_cases hr : e.refs ≤ 1
      · simp [hi, hr, Option.filter]
      · have : e.refs - 1 ≠ 0 := by omega
        simp [hi, hr, this, Option.filter]
    · simp [hi, Ne.symm hi, Option.filter]

/-- The account table once a basket has given its reservation and its reference back. -/
theorem dropReferenceOf_account {s u : State} {c : CtxNo} (hu : u.accounts = s.accounts.map (withoutHold c))
    (hc : u.ctx c = s.ctx c) (h : AccountsOrdered s) (j : Nat) :
    (dropReferenceOf c u).account j = accountLeft s c (referredId s c) 0 j := by
  have hj : u.account j = (s.account j).map (withoutHold c) := by
    unfold State.account
    rw [hu, find?_map_id (g := withoutHold c) fun _ => rfl]
  have hnd : (u.accounts.map (·.id)).Nodup := by
    rw [hu, List.map_map]; exact h.1
  unfold dropReferenceOf accountLeft referredId
  rw [hc]
  cases ha : (s.ctx c).account with
  | none =>
    simp only [Option.map_none, reduceCtorEq, if_false]
    rw [hj]
    cases s.account j <;> rfl
  | some a =>
    simp only [Option.map_some, Option.some.injEq]
    rw [dropReference_account hnd, hj]
    cases s.account j <;> rfl

/-- The state in which the pin of a basket is released: its claims, its reservation and its reference are back. -/
def unclaimed (c : CtxNo) (s : State) : State := dropReferenceOf c (removeReservation c (removeClaimsOf c s))

theorem giveBack_attached {s : State} {c : CtxNo} {a : Attachment} (h : (s.ctx c).place = .attached a) :
    giveBack c s = releasePin a.bank (unclaimed c s) := by
  have hc : ((unclaimed c s).ctx c).place = .attached a := by
    rw [ctx_congr (s := s) (by simp [unclaimed])]; exact h
  show releasePinOf c (unclaimed c s) = _
  rw [releasePinOf, hc]

theorem giveBack_claimsFreed {s u : State} {c : CtxNo} {a : Attachment} (h : (u.ctx c).place = .attached a)
    (hctx : u.ctx c = s.ctx c) (hclaims : u.claims = s.claims) (hconds : u.conds = s.conds) {t : State}
    (htc : t.claims = (giveBack c u).claims) (htd : t.conds = (giveBack c u).conds) : ClaimsFreed s t c := by
  have hcond : t.cond .claimsFull = (removeClaimsOf c u).cond .claimsFull := by
    rw [cond_congr htd, giveBack_attached h, releasePin_cond_ne _ _ (by decide),
      cond_congr (s := removeClaimsOf c u) (by simp [unclaimed])]
  have hrem := removeClaimsOf_conds c u
  rw [hclaims, hctx] at hrem
  refine ⟨?_, fun he => ?_, fun hn => ?_⟩
  · rw [htc, giveBack_attached h, releasePin_claims, ← hclaims, ← hctx, ← removeClaimsOf_claims]
    simp [unclaimed]
  · rw [if_pos he] at hrem
    rw [hcond, cond_congr hrem]
    exact cond_setCond_same ..
  · rw [if_neg fun ⟨e, he, hs⟩ => hn e he hs] at hrem
    rw [hcond, cond_congr hrem, cond_congr hconds]

theorem unclaimed_cond_ne (c : CtxNo) (s : State) {d : CondClass} (h : d ≠ .claimsFull) :
    (unclaimed c s).cond d = s.cond d := by
  rw [cond_congr (s := removeClaimsOf c s) (by simp [unclaimed]), removeClaimsOf_cond_ne c s h]

@[simp] theorem unclaimed_mask (c : CtxNo) (s : State) : (unclaimed c s).conds.mask = s.conds.mask := by
  simp [unclaimed]

theorem giveBack_pinReleased {u : State} {c : CtxNo} {a : Attachment} (h : (u.ctx c).place = .attached a) :
    PinReleased u (giveBack c u) a.bank := by
  rw [giveBack_attached h]
  exact (releasePin_releases a.bank (unclaimed c u)).congr (by simp [unclaimed]) (unclaimed_cond_ne c u (by decide))
    rfl rfl

theorem giveBack_cond_ne {u : State} {c : CtxNo} {a : Attachment} (h : (u.ctx c).place = .attached a) {d : CondClass}
    (hb : d ≠ .bankDrained) (hc : d ≠ .claimsFull) : (giveBack c u).cond d = u.cond d := by
  rw [giveBack_attached h, releasePin_cond_ne _ _ hb, unclaimed_cond_ne c u hc]

theorem giveBack_mask {u : State} {c : CtxNo} {a : Attachment} (h : (u.ctx c).place = .attached a) :
    (giveBack c u).conds.mask = u.conds.mask := by
  rw [giveBack_attached h, releasePin_mask, unclaimed_mask]

/-- The notices depend on the banks, the queue and of the conditions on BANK_DRAINED and the mask only. -/
theorem drainNotices_congr {s u : State} (hb : u.banks = s.banks) (hn : u.notices = s.notices)
    (hm : u.conds.mask = s.conds.mask) (hc : u.cond .bankDrained = s.cond .bankDrained) (b : BankNo) :
    drainNotices u b = drainNotices s b := by
  have hmasked : u.masked .bankDrained = s.masked .bankDrained := by unfold State.masked; rw [hm]
  simp only [drainNotices, noticesAfter, hmasked, bank_congr hb, hn, hc]

theorem giveBack_notices {u : State} {c : CtxNo} {a : Attachment} (h : (u.ctx c).place = .attached a) :
    (giveBack c u).notices = drainNotices u a.bank := by
  rw [giveBack_attached h, releasePin_notices]
  exact drainNotices_congr (by simp [unclaimed]) (by simp [unclaimed]) (unclaimed_mask c u)
    (unclaimed_cond_ne c u (by decide)) _

theorem giveBack_account {s u : State} {c : CtxNo} (hu : u.accounts = accountsTouched s c)
    (hc : u.ctx c = s.ctx c) (h : AccountsOrdered s) {t : State} (ht : t.accounts = (giveBack c u).accounts) (j : Nat) :
    t.account j = accountLeft s c (referredId s c) 0 j := by
  rw [← dropReferenceOf_account (u := removeReservation c (removeClaimsOf c u)) _ _ h j]
  · unfold State.account
    rw [ht]
    simp [giveBack]
  · rw [removeReservation_accounts, removeClaimsOf_accounts, hu, withoutHold_touched]
  · rw [ctx_congr (s := u) (by simp), hc]

/-! ### The lane vacated (R12, R20) -/

theorem clearLane_lanes (l : LaneNo) (s : State) :
    (clearLane l s).lanes = (s.setLane l (vacated (s.lane l))).lanes := by
  simp [clearLane, leaveWaiting, State.setLane, State.lane, get_set_same, vacated]

theorem clearLane_sched (l : LaneNo) (s : State) : (clearLane l s).sched = agedWithout s l := by
  unfold clearLane
  rw [leaveWaiting_sched]
  rfl

/-- What VOID_BASKET leaves of the state `u` of its take. -/
def voided (l : LaneNo) (c : CtxNo) (u : State) : State := clearLane l (freeCtx c (giveBack c u))

theorem voided_ctxs (l : LaneNo) (c : CtxNo) (u : State) :
    (voided l c u).ctxs = (u.setCtx c (u.ctx c).freed).ctxs := by
  have h : (giveBack c u).ctxs = u.ctxs := by simp [giveBack]
  simp [voided, freeCtx, State.setCtx, ctx_congr h, h]

theorem voided_lanes (l : LaneNo) (c : CtxNo) (u : State) :
    (voided l c u).lanes = (u.setLane l (vacated (u.lane l))).lanes := by
  have h : (freeCtx c (giveBack c u)).lanes = u.lanes := by simp [giveBack]
  rw [voided, clearLane_lanes, lane_congr h]
  simp only [State.setLane, h]

theorem voided_rest (l : LaneNo) (c : CtxNo) (u : State) :
    voided l c u = { u with
      ctxs := (voided l c u).ctxs, lanes := (voided l c u).lanes, claims := (voided l c u).claims
      banks := (voided l c u).banks, conds := (voided l c u).conds, notices := (voided l c u).notices
      accounts := (voided l c u).accounts, sched := agedWithout u l } := by
  have hs : (freeCtx c (giveBack c u)).sched = u.sched := by simp [giveBack]
  apply State.ext <;> simp [voided, giveBack]
  case sched => rw [clearLane_sched, agedWithout]; simp [agedWithout]

/-- The body of VOID_BASKET writes its context and its lane, and the tables the basket gives back to. -/
theorem bodyWrote_void {s : State} {k : Byte} {r : Req} {l : LaneNo} {c : CtxNo} {v : State}
    (hl : (laneTaken (r.frame k) l s).lane l = watched s l)
    (hv : v = voided l c (laneTaken (r.frame k) l s)) :
    BodyWrote s { s with claims := v.claims, banks := v.banks, conds := v.conds, notices := v.notices
                         sched := agedWithout s l } v k r l c (s.ctx c).freed (vacated (s.lane l)) := by
  have hrest := voided_rest l c (laneTaken (r.frame k) l s)
  rw [← hv] at hrest
  refine ⟨?_, ?_, ?_, ?_, ?_, ?_, ?_, rfl, rfl, rfl⟩
  · rw [hv, voided_ctxs, laneTaken_ctx]
  · rw [hv, voided_lanes, hl]; rfl
  · rw [hrest]
  · rw [hrest]
  · rw [hrest]
  · rw [hrest]; simp
  · apply State.ext <;> simp
    all_goals rw [hrest]
    all_goals simp [agedWithout]

/-- Settles O17: the body gives back in the order of R20, and each table is changed by one of its steps. -/
theorem voidBasketGivesEverythingBack : Obligations.VoidBasketGivesEverythingBack := by
  intro s r l c a ht hb hp hacc
  have he : exec (.voidBasket r) s = _ := basketRequest_takes ht hb (len := 0) (by rw [hp]; rfl) voidBasketBody
  obtain ⟨hst, hc, hpl, -⟩ := hb
  generalize hu : laneTaken (r.frame 0x10) l s = u at he
  have hctx : u.ctx c = s.ctx c := by rw [← hu]; exact laneTaken_ctx ..
  have hplace : (u.ctx c).place = .attached a := hctx ▸ hpl
  have haccs : u.accounts = accountsTouched s c := by rw [← hu]; exact laneTaken_accounts hc
  have hclaims : u.claims = s.claims := by rw [← hu]; simp
  have hconds : u.conds = s.conds := by rw [← hu]; simp
  have hbanks : u.banks = s.banks := by rw [← hu]; simp
  have hnotices : u.notices = s.notices := by rw [← hu]; simp
  have hw := bodyWrote_void (s := s) (k := 0x10) (r := r) (l := l) (c := c)
    (by rw [laneTaken_lane_on hst, if_pos rfl]) rfl
  rw [hu] at hw
  obtain ⟨t, ht', ha, hx, hy, hco, hlo, hta, hf⟩ := hw.answered (rev := 0)
    (by simp [State.laneRevision, hw.lane_same, vacated]) .ok (ctxByte c :: enc 2 (s.ctx c).incarnation.toNat)
  have htc : t.claims = (giveBack c u).claims := by rw [hf.1]; simp [voided]
  have htb : t.banks = (giveBack c u).banks := by rw [hf.1]; simp [voided]
  have htd : t.conds = (giveBack c u).conds := by rw [hf.1]; simp [voided]
  have htn : t.notices = (giveBack c u).notices := by rw [hf.1]; simp [voided]
  refine ⟨t, ?_, ha, hx, hco, hy, hlo, ?_, ?_, ?_, ?_, ?_, ?_, ?_⟩
  · rw [he, ← ht', voidBasketBody, hctx]; rfl
  · exact giveBack_claimsFreed hplace hctx hclaims hconds htc htd
  · exact (giveBack_pinReleased hplace).congr hbanks (cond_congr hconds _) htb htd
  · exact giveBack_account haccs hctx hacc (hta.trans (by simp [voided]))
  · rw [htd, giveBack_mask hplace, hconds]
  · exact fun d hd hd' => by rw [cond_congr htd, giveBack_cond_ne hplace hd hd', cond_congr hconds]
  · rw [htn, giveBack_notices hplace, drainNotices_congr hbanks hnotices (by rw [hconds]) (cond_congr hconds _)]
  · rw [htc, htb, htd, htn]; simpa [voided] using hf

end Sys2Proof.Machine


/-! CONFIGURE (R2, R179): the record checked field by field, the configuration it holds and the lanes under it. -/

namespace Sys2Proof.Machine

/-! ### The configuration record (R179, R187) -/

/-- The checks of a configuration record as the manual's table lists them. -/
def recordChecks (p : List Byte) : List (Bool × Nat) :=
  [ (decide (∀ i : Fin 8, field p (1 + i.val) 1 ≤ 2), 1),
    (decide ((field p 9 1 ≤ 2 ∧ field p 10 1 ≤ 2 ∧ field p 11 1 ≤ 2) ∧
      field p 9 1 ≠ field p 10 1 ∧ field p 9 1 ≠ field p 11 1 ∧ field p 10 1 ≠ field p 11 1), 9),
    (decide (field p 12 1 ≤ 8), 12), (decide (field p 13 1 ≤ 1), 13),
    (decide (4 ≤ field p 14 1 ∧ field p 14 1 ≤ 23), 14),
    (decide (2 ≤ field p 15 1 ∧ field p 15 1 ≤ 7), 15),
    (decide (1 ≤ field p 16 2), 16), (decide (field p 18 2 < field p 16 2), 18),
    (decide (field p 20 1 ≤ 3), 20), (decide (field p 21 1 ≤ 7), 21),
    (decide (10 ≤ field p 22 2 ∧ field p 22 2 ≤ 3600), 22),
    (decide (field p 24 2 = 0 ∨ (10 ≤ field p 24 2 ∧ field p 24 2 ≤ 3600)), 24),
    (decide (60 ≤ field p 26 2 ∧ field p 26 2 ≤ 14400), 26) ]

/-- The model's checks are those of the manual, in its order. -/
theorem configChecks_eq (p : List Byte) : configChecks p = recordChecks p := by
  have hgroups : ((List.range 8).all fun i => decide (field p (1 + i) 1 ≤ 2)) =
      decide (∀ i : Fin 8, field p (1 + i.val) 1 ≤ 2) := by
    rw [Bool.eq_iff_iff, List.all_eq_true, decide_eq_true_iff]
    simp only [List.mem_range, decide_eq_true_iff]
    exact ⟨fun h i => h i i.isLt, fun h i hi => h ⟨i, hi⟩⟩
  have hne : ∀ m n : Nat, (m != n) = decide (m ≠ n) := fun m n => by by_cases h : m = n <;> simp [h]
  have heq : ∀ n : Nat, (n == 0) = decide (n = 0) := fun n => rfl
  simp only [configChecks, recordChecks, hgroups, hne, heq, Bool.decide_and, Bool.decide_or, Bool.and_assoc]

/-- The configuration a record holds, as the manual's table lists its fields. -/
def recordConfig (p : List Byte) : Configuration :=
  { enabled := BitVec.ofNat 8 (field p 0 1)
    groups := Vector.ofFn fun l => groupOf (field p (1 + l.val) 1)
    groupOrder := [groupOf (field p 9 1), groupOf (field p 10 1), groupOf (field p 11 1)]
    priority := laneOf (BitVec.ofNat 8 (field p 12 1))
    trackingDefault := if field p 13 1 = 1 then .tracking else .onDemand
    poolWatermark := field p 14 1, bulkWatermark := field p 15 1
    holdTime := field p 16 2, renewMargin := field p 18 2
    renew := (field p 20 1).testBit 0, release := (field p 20 1).testBit 1
    holdThreshold := field p 21 1, reservationLifetime := field p 22 2
    idleTime := field p 24 2, parkLifetime := field p 26 2 }

theorem configOf_eq (p : List Byte) : configOf p = recordConfig p := by
  have hbit : ∀ i : Nat, i < 8 → (BitVec.ofNat 8 (field p 20 1)).getLsbD i = (field p 20 1).testBit i :=
    fun i hi => by rw [BitVec.getLsbD_ofNat, decide_eq_true hi, Bool.true_and]
  simp only [configOf, recordConfig, hbit 0 (by omega), hbit 1 (by omega)]
  congr 1

/-! ### The configuration taken (R2, R146) -/

theorem basketLanes_nil {s : State} (h : ∀ l, (s.lane l).state.holdsBasket = false) :
    (basketLanes s).isEmpty = true := by
  rw [List.isEmpty_iff, basketLanes, List.filter_eq_nil_iff]
  intro l _
  simp [h l]

theorem configureBody_busy {p : List Byte} {u : State} (h : ∃ l, (u.lane l).state.holdsBasket = true) :
    configureBody p u = (u, .reply .busy (enc 2 (laneSetOf (basketLanes u)).toNat)) := by
  obtain ⟨l, hl⟩ := h
  refine if_neg fun he => ?_
  rw [basketLanes_empty he l] at hl
  cases hl

theorem configureBody_bad {p : List Byte} {u : State} {off : Nat}
    (h : ∀ l, (u.lane l).state.holdsBasket = false) (hc : firstBad (recordChecks p) = some off) :
    configureBody p u = (u, badField 0 off) := by
  unfold configureBody
  rw [if_pos (basketLanes_nil h), configChecks_eq, hc]

theorem configureBody_ok {p : List Byte} {u : State}
    (h : ∀ l, (u.lane l).state.holdsBasket = false) (hc : firstBad (recordChecks p) = none) :
    configureBody p u = (takeConfiguration (recordConfig p) u,
      .reply .ok (enc 2 (laneSetOf (allLanes.filter fun l => (recordConfig p).enabled.getLsbD l)).toNat)) := by
  unfold configureBody
  rw [if_pos (basketLanes_nil h), configChecks_eq, hc, configOf_eq]
  rfl

theorem basketLanes_congr {s u : State} (h : u.lanes = s.lanes) : basketLanes u = basketLanes s := by
  unfold basketLanes
  simp only [lane_congr h]

theorem takeConfiguration_lane (x : Configuration) (u : State) (l : LaneNo) : (takeConfiguration x u).lane l =
    { u.lane l with state := if x.enabled.getLsbD l then .idle else .off, tracking := x.trackingDefault } :=
  configureLanes_lane _ l

/-- The frame of CONFIGURE accepted, where `t` has the configuration taken. -/
theorem bulkFrame_configured (s : State) (f g : Frame) (x : Configuration) {t : State}
    (ht : t = settleClaims (placeReserved g (takeConfiguration x (bulkTaken f s)))) :
    BulkFrame { s with config := t.config, lanes := t.lanes, sched := t.sched } t := by
  have hl := bulkTaken_link f s
  refine ⟨?_, ?_⟩
  · rw [ht]
    apply State.ext <;> simp [takeConfiguration, configureLanes]
    exact hl
  · have hs := settleClaims_served (placeReserved g (takeConfiguration x (bulkTaken f s)))
    rw [ht]
    simpa [placeReserved, takeConfiguration, configureLanes, bulkTaken_requests, bulkTaken_served] using hs

/-- CONFIGURE accepted: reply, configuration, lanes, scheduler and frame. -/
theorem configured {s : State} (r : Req) (x : Configuration) (fields : List Byte) :
    ∃ t, Host.Outcome.next (φ := Fault) (ρ := Refusal)
        (settleClaims (answerBulk 0x2C r (takeConfiguration x (bulkTaken (r.frame 0x2C) s), .reply .ok fields))) =
          .next t ∧
      t.config = x ∧
      (∀ l, t.lane l = { s.lane l with
        state := if x.enabled.getLsbD l then .idle else .off, tracking := x.trackingDefault }) ∧
      t.sched = { s.sched with previous := .none } ∧ BulkAnswered s t 0x2C r .ok fields ∧
      BulkFrame { s with config := t.config, lanes := t.lanes, sched := t.sched } t := by
  rw [answerBulk_reply]
  refine ⟨_, rfl, ?_, fun l => ?_, ?_, bulkAnswered_of rfl rfl rfl, bulkFrame_configured s _ _ x rfl⟩
  · simp [takeConfiguration, configureLanes]
  · rw [lane_congr (s := takeConfiguration x (bulkTaken (r.frame 0x2C) s)) (by simp), takeConfiguration_lane,
      lane_congr (bulkTaken_lanes ..)]
  · simp [takeConfiguration, configureLanes]

/-- Settles O39: the three branches of the body, with the model's checks and record read as the manual's. -/
theorem configureReplacesTheConfiguration : Obligations.ConfigureReplacesTheConfiguration := by
  intro s r x checks ht h0 hlen hchecks
  obtain rfl : checks = recordChecks r.payload := hchecks
  have hlanes : (bulkTaken (r.frame 0x2C) s).lanes = s.lanes := bulkTaken_lanes ..
  have hlane := lane_congr hlanes
  have hbody : withLength 28 r (configureBody r.payload) (bulkTaken (r.frame 0x2C) s) =
      configureBody r.payload (bulkTaken (r.frame 0x2C) s) := by rw [withLength, if_pos hlen]
  refine ⟨fun off hfree hfails => ?_, fun hfree hok hx => ?_, fun hheld => ?_⟩
  · refine bulkRequest_refused h0 ht _ ?_
    rw [hbody, configureBody_bad (by simpa only [hlane] using hfree) (firstFails_iff.1 hfails)]
    rfl
  · have he : exec (.configure r) s = _ := bulkRequest_takes h0 ht (withLength 28 r (configureBody r.payload))
    rw [hbody, configureBody_ok (by simpa only [hlane] using hfree) (firstBad_none.2 hok)] at he
    obtain rfl : x = recordConfig r.payload := hx
    obtain ⟨t, ht', hconfig, hl, hsched, ha, hf⟩ := configured (s := s) r (recordConfig r.payload)
      (enc 2 (laneSetOf (allLanes.filter fun l => (recordConfig r.payload).enabled.getLsbD l)).toNat)
    exact ⟨t, he.trans ht', hconfig, hl, hsched, ha, hf⟩
  · refine bulkRequest_refused h0 ht _ ?_
    rw [hbody, configureBody_busy (by simpa only [hlane] using hheld), basketLanes_congr hlanes]
    rfl

end Sys2Proof.Machine


/-! The line lists (R24, R25): their law, and what each shared operation and each line request does to the line list of a
context. -/

namespace Sys2Proof.Machine

/-! ### The law of a line list -/

/-- The law is about the lines and the next line number only. -/
theorem LinesLaw.congr {x y : Context} (h : LinesLaw x) (hl : y.lines = x.lines) (hn : y.nextLine = x.nextLine) :
    LinesLaw y := by
  unfold LinesLaw Context.gross at h ⊢
  rwa [hl, hn]

/-- A change of the lines that leaves their numbers and keeps the gross within its limit. -/
theorem LinesLaw.withLines {x : Context} (h : LinesLaw x) {ls : List Line}
    (hn : ls.map (·.number) = x.lines.map (·.number)) (hg : grossOf ls ≤ maxAmount) :
    LinesLaw { x with lines := ls } := by
  obtain ⟨hnum, hnext, hlen, -⟩ := h
  have hll : ls.length = x.lines.length := by simpa using congrArg List.length hn
  unfold LinesLaw
  dsimp only
  rw [hll, hn]
  exact ⟨hnum, hnext, hlen, hg⟩

/-- The next line joins a list with room for it and its gross (R27, R28). -/
theorem LinesLaw.append {x : Context} (h : LinesLaw x) {l : Line} (hl : l.number = x.nextLine)
    (hroom : x.lines.length < 128) (hg : x.gross + l.grossPart ≤ maxAmount) :
    LinesLaw { x with lines := x.lines ++ [l], nextLine := x.nextLine + 1 } := by
  obtain ⟨hnum, hnext, -, -⟩ := h
  refine ⟨?_, ?_, ?_, ?_⟩
  · simp [hnum, hl, hnext, List.range'_concat, Nat.add_comm]
  · simp [hnext]
  · show (x.lines ++ [l]).length ≤ 128
    rw [List.length_append, List.length_singleton]
    exact Nat.succ_le_of_lt hroom
  · simpa [Context.gross, grossOf] using hg

theorem initial_linesLaw : LinesLaw Context.initial := ⟨rfl, rfl, Nat.zero_le _, Nat.zero_le _⟩

theorem freed_linesLaw (x : Context) : LinesLaw x.freed := initial_linesLaw.congr rfl rfl

theorem lineNamed_mem {x : Context} {n : Nat} {ln : Line} (h : x.lineNamed n = some ln) : ln ∈ x.lines := by
  unfold Context.lineNamed at h
  split at h
  · exact List.mem_of_find?_eq_some h
  · cases h

/-- A line put in the place of its number leaves the numbers. -/
theorem replaceLine_numbers (l : Line) (ls : List Line) :
    (replaceLine l ls).map (·.number) = ls.map (·.number) := by
  unfold replaceLine
  rw [List.map_map]
  refine List.map_congr_left fun y _ => ?_
  by_cases h : y.number = l.number <;> simp [h]

theorem grossOf_cons (l : Line) (ls : List Line) : grossOf (l :: ls) = l.grossPart + grossOf ls := by
  simp only [grossOf, List.map_cons, List.sum_cons]

/-- The gross falls with the parts of its lines. -/
theorem grossOf_map_le {g : Line → Line} (h : ∀ y, (g y).grossPart ≤ y.grossPart) (ls : List Line) :
    grossOf (ls.map g) ≤ grossOf ls := by
  induction ls with
  | nil => exact Nat.le_refl _
  | cons y ys ih =>
    rw [List.map_cons, grossOf_cons, grossOf_cons]
    exact Nat.add_le_add (h y) ih

/-- An edit that raises no line's part of the gross does not raise the gross. -/
theorem grossOf_editLine_le (x : Context) (n : Nat) {f : Line → Line} (h : ∀ y, (f y).grossPart ≤ y.grossPart) :
    grossOf (editLine x n f) ≤ x.gross := by
  refine grossOf_map_le (fun y => ?_) x.lines
  split
  · exact h y
  · exact Nat.le_refl _

/-! ### Operations that keep the line lists -/

/-- No context loses the law of its line list from one state to another. -/
structure LinesKept (s t : State) : Prop where
  law : ∀ c, LinesLaw (s.ctx c) → LinesLaw (t.ctx c)

theorem LinesKept.refl (s : State) : LinesKept s s := ⟨fun _ => id⟩

theorem LinesKept.trans {s t u : State} (h : LinesKept s t) (h' : LinesKept t u) : LinesKept s u :=
  ⟨fun c hc => h'.law c (h.law c hc)⟩

/-- An operation that leaves the contexts alone keeps their line lists. -/
theorem LinesKept.of_ctxs {s t : State} (h : t.ctxs = s.ctxs) : LinesKept s t :=
  ⟨fun c hc => by rwa [ctx_congr h]⟩

theorem setCtx_linesKept {s : State} {c : CtxNo} {x : Context} (h : LinesLaw (s.ctx c) → LinesLaw x) :
    LinesKept s (s.setCtx c x) := by
  refine ⟨fun d hd => ?_⟩
  rw [ctx_setCtx]
  split
  · next e => exact h (e ▸ hd)
  · exact hd

/-- A write of a context that leaves its lines. -/
theorem setCtx_sameLines {s : State} {c : CtxNo} {x : Context} (hl : x.lines = (s.ctx c).lines)
    (hn : x.nextLine = (s.ctx c).nextLine) : LinesKept s (s.setCtx c x) :=
  setCtx_linesKept fun h => h.congr hl hn

/-- A revision increase of its context, and of no other (R15). -/
theorem bumpRevision_ctx (c d : CtxNo) (s : State) :
    (bumpRevision c s).ctx d = if d = c then (s.ctx c).bumped else s.ctx d := by
  rw [← ctx_setCtx]
  unfold bumpRevision
  split
  · exact ctx_congr (setLane_ctxs ..) d
  · rfl

theorem bumpRevision_linesKept (c : CtxNo) (s : State) : LinesKept s (bumpRevision c s) := by
  refine ⟨fun d hd => ?_⟩
  rw [bumpRevision_ctx]
  split
  · next e => exact LinesLaw.congr (e ▸ hd) rfl rfl
  · exact hd

theorem bumpAll_linesKept (cs : List CtxNo) (s : State) :
    LinesKept s (cs.foldl (fun s c => bumpRevision c s) s) := by
  induction cs generalizing s with
  | nil => exact .refl _
  | cons c cs ih => exact (bumpRevision_linesKept c s).trans (ih _)

/-- A change of a context that leaves its lines, with the revision increase it makes (R15). -/
theorem edit_linesKept {s : State} {c : CtxNo} {x : Context} (hl : x.lines = (s.ctx c).lines)
    (hn : x.nextLine = (s.ctx c).nextLine) : LinesKept s (bumpRevision c (s.setCtx c x)) :=
  (setCtx_sameLines hl hn).trans (bumpRevision_linesKept c _)

theorem freeCtx_linesKept (c : CtxNo) (s : State) : LinesKept s (freeCtx c s) :=
  setCtx_linesKept fun _ => freed_linesLaw _

theorem cutRule_linesKept (id : Nat) (s : State) : LinesKept s (cutRule id s).1 := by
  unfold cutRule
  split
  · exact .refl _
  · dsimp only
    split
    · exact .refl _
    · refine .trans (.trans (.of_ctxs (changeAccount_ctxs ..)) (bumpAll_linesKept _ _)) (.of_ctxs (raise_ctxs ..))

theorem parkBasket_linesKept (l : LaneNo) (c : CtxNo) (s : State) : LinesKept s (parkBasket l c s).1 := by
  have hr : LinesKept s (parkReleased c s) := by
    unfold parkReleased
    refine .trans ?_ (.of_ctxs (releasePinOf_ctxs ..))
    split
    · exact .trans (t := removeReservation c s) (.of_ctxs rfl) (bumpRevision_linesKept c _)
    · exact .refl _
  rw [parkBasket_state]
  refine hr.trans (.trans (t := parkUnder c _ _) ⟨fun d hd => ?_⟩ (.of_ctxs (clearLane_ctxs ..)))
  rw [parkUnder_ctx]
  split
  · next e => exact LinesLaw.congr (e ▸ hd) rfl rfl
  · exact hd

/-! ### The line requests -/

theorem changeLines_linesKept {c : CtxNo} {ls : List Line} {s : State}
    (hn : ls.map (·.number) = (s.ctx c).lines.map (·.number))
    (hg : LinesLaw (s.ctx c) → grossOf ls ≤ maxAmount) : LinesKept s (changeLines c ls s) :=
  (setCtx_linesKept fun h => h.withLines hn (hg h)).trans (bumpRevision_linesKept c _)

/-- A line of the list changed in its place without a rise of its part of the gross. -/
theorem replaceLine_linesKept {c : CtxNo} {ln : Line} {s : State} (hm : ln ∈ (s.ctx c).lines) {f : Line → Line}
    (hf : ∀ y, (f y).number = y.number) (hg : ∀ y, (f y).grossPart ≤ y.grossPart) :
    LinesKept s (changeLines c (replaceLine (f ln) (s.ctx c).lines) s) := by
  refine changeLines_linesKept (replaceLine_numbers ..) fun h => ?_
  rw [h.replaceLine hm hf]
  obtain ⟨-, -, -, hgross⟩ := h
  exact Nat.le_trans (grossOf_editLine_le _ _ hg) hgross

theorem onLine_linesKept {p : List Byte} {c : CtxNo} {body : Line → State → State × Answer} {s : State}
    (h : ∀ ln ∈ (s.ctx c).lines, LinesKept s (body ln s).1) : LinesKept s (onLine p c body s).1 := by
  unfold onLine
  split
  · exact .refl _
  · next hn =>
    split
    · exact .refl _
    · exact h _ (lineNamed_mem hn)

theorem addLineBody_linesKept (p : List Byte) (c : CtxNo) (s : State) : LinesKept s (addLineBody p c s).1 := by
  unfold addLineBody
  split
  · exact .refl _
  · dsimp only
    split
    · exact .refl _
    · next hroom =>
      split
      · exact .refl _
      · next hg =>
        refine .trans (setCtx_linesKept fun h => ?_) (bumpRevision_linesKept c _)
        exact h.append rfl (Nat.lt_of_not_le hroom) (Nat.le_of_not_lt hg)

theorem setQtyBody_linesKept (p : List Byte) (c : CtxNo) (ln : Line) (s : State) :
    LinesKept s (setQtyBody p c ln s).1 := by
  unfold setQtyBody
  dsimp only
  split
  · split
    · exact .refl _
    · next hg =>
      split
      · exact .refl _
      · exact changeLines_linesKept (replaceLine_numbers ..) fun _ => Nat.le_of_not_lt hg
  · exact .refl _

theorem voidLineBody_linesKept {c : CtxNo} {ln : Line} {s : State} (hm : ln ∈ (s.ctx c).lines) :
    LinesKept s (voidLineBody c ln s).1 :=
  replaceLine_linesKept hm (f := fun y => { y with voided := true }) (fun _ => rfl) fun _ => Nat.zero_le _

theorem overrideBody_linesKept (p : List Byte) {c : CtxNo} {ln : Line} {s : State} (hm : ln ∈ (s.ctx c).lines) :
    LinesKept s (overrideBody p c ln s).1 := by
  unfold overrideBody
  split
  · exact .refl _
  · dsimp only
    repeat' split
    case h_2.isFalse.isFalse.isFalse.isFalse =>
      exact replaceLine_linesKept hm
        (f := fun y => { y with override := some ⟨field p 1 4, field p 5 3, field p 8 1⟩ })
        (fun _ => rfl) fun _ => Nat.le_refl _
    all_goals exact .refl _

theorem clearOverrideBody_linesKept {c : CtxNo} {ln : Line} {s : State} (hm : ln ∈ (s.ctx c).lines) :
    LinesKept s (clearOverrideBody c ln s).1 :=
  replaceLine_linesKept hm (f := fun y => { y with override := none }) (fun _ => rfl) fun _ => Nat.le_refl _

end Sys2Proof.Machine


/-! Every command keeps the line lists (R24, R25): the bodies of the other requests, the link, the scheduler and the
settlement writer. -/

namespace Sys2Proof.Machine

/-! ### Request bodies that leave the lines -/

theorem makeClaim_ctxs {c : CtxNo} {serial : Nat} {s t : State} {e : Option Nat}
    (h : makeClaim c serial s = some (t, e)) : t.ctxs = s.ctxs := by
  unfold makeClaim at h
  dsimp only at h
  repeat' split at h
  all_goals cases h
  all_goals rfl

theorem claimCoupon_linesKept (k : Coupon) (c : CtxNo) (s : State) : LinesKept s (claimCoupon k c s).1 := by
  unfold claimCoupon
  split
  · exact .refl _
  · split
    · exact .of_ctxs (raise_ctxs ..)
    · next h => exact (LinesKept.of_ctxs (makeClaim_ctxs h)).trans (edit_linesKept rfl rfl)

theorem presentCouponBody_linesKept (p : List Byte) (c : CtxNo) (s : State) :
    LinesKept s (presentCouponBody p c s).1 := by
  unfold presentCouponBody
  split
  · exact .refl _
  · dsimp only
    split
    · exact .refl _
    · split
      · exact .refl _
      · exact claimCoupon_linesKept ..

theorem releaseSerial_ctxs (c : CtxNo) (n : Nat) (s : State) : (releaseSerial c n s).ctxs = s.ctxs := by
  unfold releaseSerial
  split
  · rfl
  · exact removeClaims_ctxs ..

theorem withdrawCouponBody_linesKept (p : List Byte) (c : CtxNo) (s : State) :
    LinesKept s (withdrawCouponBody p c s).1 := by
  unfold withdrawCouponBody
  dsimp only
  split
  · exact .refl _
  · exact (LinesKept.of_ctxs (releaseSerial_ctxs ..)).trans (edit_linesKept rfl rfl)

theorem dropOther_ctxs (c : CtxNo) (id : Nat) (s : State) : (dropOther c id s).ctxs = s.ctxs := by
  unfold dropOther
  repeat' split
  all_goals rfl

theorem giveBalance_linesKept (c : CtxNo) (id balance : Nat) (s : State) :
    LinesKept s (giveBalance c id balance s).1 := by
  unfold giveBalance
  split
  · exact .of_ctxs rfl
  · exact (LinesKept.of_ctxs (changeAccount_ctxs ..)).trans (cutRule_linesKept id _)

theorem removeReservation_linesKept (c : CtxNo) (s : State) : LinesKept s (removeReservation c s) := .of_ctxs rfl

theorem attachBody_linesKept (p : List Byte) (c : CtxNo) (s : State) : LinesKept s (attachBody p c s).1 := by
  unfold attachBody
  split
  · exact .refl _
  · exact (removeReservation_linesKept c s).trans ((LinesKept.of_ctxs (dropOther_ctxs ..)).trans
      ((giveBalance_linesKept c _ _ _).trans (edit_linesKept rfl rfl)))

theorem detachBody_linesKept (c : CtxNo) (s : State) : LinesKept s (detachBody c s).1 := by
  unfold detachBody
  split
  · exact .refl _
  · next a _ =>
    exact .trans (t := dropReference a.id (removeReservation c s)) (.of_ctxs rfl) (edit_linesKept rfl rfl)

theorem redeemBody_linesKept (p : List Byte) (c : CtxNo) (s : State) : LinesKept s (redeemBody p c s).1 := by
  unfold redeemBody
  dsimp only
  split
  · split
    · exact .refl _
    · next a _ =>
      split
      · exact .refl _
      · split
        · exact .refl _
        · exact .trans (t := addReservation c a.id (field p 0 4) (removeReservation c s)) (.of_ctxs rfl)
            (bumpRevision_linesKept c _)
  · exact .refl _

theorem cancelRedeemBody_linesKept (c : CtxNo) (s : State) : LinesKept s (cancelRedeemBody c s).1 := by
  unfold cancelRedeemBody
  split
  · exact .refl _
  · exact (removeReservation_linesKept c s).trans (bumpRevision_linesKept c _)

theorem withTracking_lines (x : Context) (m : Tracking) :
    (x.withTracking m).lines = x.lines ∧ (x.withTracking m).nextLine = x.nextLine := by
  unfold Context.withTracking
  split <;> exact ⟨rfl, rfl⟩

theorem setTrackingBody_linesKept (p : List Byte) (l : LaneNo) (c : CtxNo) (s : State) :
    LinesKept s (setTrackingBody p l c s).1 := by
  unfold setTrackingBody
  split
  · exact .refl _
  · next m _ =>
    obtain ⟨hl, hn⟩ := withTracking_lines (s.ctx c) m
    have hm : LinesKept s (s.setCtx c ((s.ctx c).withTracking m)) := setCtx_sameLines hl hn
    have hlane : ∀ u x, LinesKept u (u.setLane l x) := fun u x => .of_ctxs (setLane_ctxs ..)
    dsimp only
    split
    · exact hm.trans ((hlane _ _).trans (setCtx_sameLines rfl rfl))
    · exact hm.trans ((hlane _ _).trans (.trans (setCtx_sameLines (by rfl) (by rfl))
        ((hlane _ _).trans (.of_ctxs (leaveWaiting_ctxs ..)))))

theorem totalBody_linesKept (tag : Byte) (l : LaneNo) (c : CtxNo) (s : State) :
    LinesKept s (totalBody tag l c s).1 := by
  unfold totalBody
  split
  · exact .of_ctxs (setLane_ctxs ..)
  · exact .trans (t := s.setCtx c { s.ctx c with wanted := true }) (setCtx_sameLines rfl rfl) (.of_ctxs (by simp))

theorem convertPoints_linesKept (c : CtxNo) (used : Nat) (s : State) : LinesKept s (convertPoints c used s) := by
  unfold convertPoints
  split
  · exact .refl _
  · next a _ =>
    exact .trans (t := dropReference a.id (removeReservation c
      (changeAccount a.id (fun e => { e with balance := e.balance - used }) s))) (.of_ctxs rfl) (setCtx_sameLines rfl rfl)

theorem settle_linesKept (tag : Byte) (l : LaneNo) (c : CtxNo) (q : Quote) (s : State) :
    LinesKept s (settle tag l c q s) :=
  .trans (t := convertPoints c q.pointsUsed (spendClaimsOf c s))
    ((LinesKept.of_ctxs (spendClaimsOf_ctxs ..)).trans (convertPoints_linesKept ..))
    (.of_ctxs (by simp [settle, startStream]))

theorem finalizeBody_linesKept (tag : Byte) (l : LaneNo) (c : CtxNo) (s : State) :
    LinesKept s (finalizeBody tag l c s).1 := by
  unfold finalizeBody
  split
  · exact settle_linesKept ..
  · exact .refl _

theorem queryBasketBody_linesKept (p : List Byte) (c : CtxNo) (s : State) :
    LinesKept s (queryBasketBody p c s).1 := by
  unfold queryBasketBody
  dsimp only
  split <;> exact .refl _

/-! ### Request bodies that move a basket -/

theorem openIn_linesKept (l : LaneNo) (c : CtxNo) (b : BankNo) (s : State) : LinesKept s (openIn l c b s).1 :=
  .trans (t := s.setCtx c ((s.ctx c).allocated ⟨l, (s.lane l).tracking, b, (s.bank b).generation, s.device.day⟩))
    (setCtx_linesKept fun _ => initial_linesLaw.congr rfl rfl) (.of_ctxs (by simp [openIn]))

theorem openBody_linesKept (l : LaneNo) (s : State) : LinesKept s (openBody l s).1 := by
  unfold openBody
  split
  · split
    · exact .refl _
    · split
      · exact openIn_linesKept ..
      · exact .refl _
  · exact .refl _

theorem recallTo_linesKept (l : LaneNo) (c : CtxNo) (n : Nat) (b : BankNo) (s : State) :
    LinesKept s (recallTo l c n b s).1 := by
  refine .trans (t := unlist n s) (.of_ctxs rfl) (.trans (setCtx_linesKept (c := c)
    (x := { s.ctx c with
      place := .attached ⟨l, (s.lane l).tracking, b, (s.bank b).generation, s.device.day⟩
      coupons := (s.ctx c).coupons.map (·.recalled (s.bank b) s.device.day) }) (fun h => h.congr rfl rfl)) ?_)
  exact .trans (.of_ctxs (by simp)) (.trans (bumpRevision_linesKept c _) (.of_ctxs (startIdle_ctxs 0 l _)))

theorem recallBody_linesKept (p : List Byte) (l : LaneNo) (s : State) : LinesKept s (recallBody p l s).1 := by
  unfold recallBody
  dsimp only
  split
  · split
    · exact .refl _
    · split
      · exact .refl _
      · split
        · exact recallTo_linesKept ..
        · exact .refl _
  · exact .refl _

theorem voidBasketBody_linesKept (l : LaneNo) (c : CtxNo) (s : State) : LinesKept s (voidBasketBody l c s).1 :=
  .trans (t := giveBack c s) (.of_ctxs (by simp [giveBack])) ((freeCtx_linesKept c _).trans (.of_ctxs (clearLane_ctxs ..)))

/-! ### Bodies of bulk requests -/

theorem updateServing_ctxs (s : State) : (updateServing s).ctxs = s.ctxs := by
  unfold updateServing
  split <;> rfl

theorem onStaging_ctxs {body : BankNo → State → State × Answer} {s : State} (h : ∀ b, (body b s).1.ctxs = s.ctxs) :
    (onStaging body s).1.ctxs = s.ctxs := by
  unfold onStaging
  split
  · exact h _
  · rfl

theorem bankBeginBody_ctxs (p : List Byte) (s : State) : (bankBeginBody p s).1.ctxs = s.ctxs := by
  unfold bankBeginBody
  dsimp only
  repeat' split
  all_goals rfl

theorem offerPutBody_ctxs (p : List Byte) (b : BankNo) (s : State) : (offerPutBody p b s).1.ctxs = s.ctxs := by
  unfold offerPutBody
  dsimp only
  repeat' split
  all_goals rfl

theorem offersCloseBody_ctxs (p : List Byte) (b : BankNo) (s : State) :
    (offersCloseBody p b s).1.ctxs = s.ctxs := by
  unfold offersCloseBody
  dsimp only
  split <;> rfl

theorem schedulePutBody_ctxs (p : List Byte) (b : BankNo) (s : State) :
    (schedulePutBody p b s).1.ctxs = s.ctxs := by
  unfold schedulePutBody
  split <;> rfl

theorem replaceCurrent_ctxs (s : State) : (replaceCurrent s).ctxs = s.ctxs := by
  unfold replaceCurrent
  split <;> rfl

theorem bankCommitBody_ctxs (s : State) : (bankCommitBody s).1.ctxs = s.ctxs := by
  unfold bankCommitBody
  split
  · rfl
  · split
    · rfl
    · simp [commitBank, updateServing_ctxs, replaceCurrent_ctxs]

theorem authorityLoadBody_ctxs (p : List Byte) (s : State) : (authorityLoadBody p s).1.ctxs = s.ctxs := by
  unfold authorityLoadBody
  dsimp only
  repeat' split
  all_goals rfl

theorem authorityRemoveBody_ctxs (p : List Byte) (s : State) : (authorityRemoveBody p s).1.ctxs = s.ctxs := by
  unfold authorityRemoveBody
  dsimp only
  repeat' split
  all_goals rfl

theorem accountBalanceBody_linesKept (p : List Byte) (s : State) : LinesKept s (accountBalanceBody p s).1 := by
  unfold accountBalanceBody
  dsimp only
  split
  · exact .refl _
  · split
    · exact .refl _
    · exact (LinesKept.of_ctxs (changeAccount_ctxs ..)).trans (cutRule_linesKept _ _)

theorem configureBody_ctxs (p : List Byte) (s : State) : (configureBody p s).1.ctxs = s.ctxs := by
  unfold configureBody
  repeat' split
  all_goals rfl

theorem dayOpenBody_ctxs (p : List Byte) (s : State) : (dayOpenBody p s).1.ctxs = s.ctxs := by
  unfold dayOpenBody
  dsimp only
  repeat' split
  case isTrue.isTrue => simp [openDay, updateServing_ctxs]
  all_goals rfl

theorem clearClasses_ctxs (set : Nat) (s : State) : (clearClasses set s).ctxs = s.ctxs := by
  unfold clearClasses
  generalize allClasses = cs
  induction cs generalizing s with
  | nil => rfl
  | cons c cs ih =>
    refine (ih _).trans ?_
    dsimp only
    split
    · cases c <;> rfl
    · rfl

theorem clearConditionsBody_ctxs (p : List Byte) (s : State) : (clearConditionsBody p s).1.ctxs = s.ctxs := by
  unfold clearConditionsBody
  split
  · exact clearClasses_ctxs ..
  · rfl

theorem setMaskBody_ctxs (p : List Byte) (s : State) : (setMaskBody p s).1.ctxs = s.ctxs := by
  unfold setMaskBody
  split
  · exact setMask_ctxs ..
  · rfl

/-! ### The link -/

theorem storeFrame_ctxs (q : QueueId) (f : Frame) (s : State) : (storeFrame q f s).ctxs = s.ctxs := by
  unfold storeFrame testCongestion
  dsimp only
  repeat' split
  all_goals simp

theorem arrive_ctxs (f : Frame) (s : State) : (arrive f s).ctxs = s.ctxs := by
  unfold arrive
  split
  · unfold actHold
    split <;> rfl
  · exact storeFrame_ctxs ..

theorem completeFrame_ctxs (got : List Byte) (s : State) : (completeFrame got s).ctxs = s.ctxs := by
  unfold completeFrame
  split
  · exact arrive_ctxs _ (toHunt s)
  · exact linkFault_ctxs _ (toHunt s)

theorem receiveByte_ctxs (b : Byte) (s : State) : (receiveByte b s).ctxs = s.ctxs := by
  unfold receiveByte
  split
  · split <;> rfl
  · unfold gather
    split
    · exact linkFault_ctxs _ (toHunt s)
    · split
      · exact completeFrame_ctxs ..
      · rfl

theorem startMain_ctxs (s : State) : (startMain s).ctxs = s.ctxs := by
  unfold startMain
  split <;> rfl

theorem startNotice_ctxs (s : State) : (startNotice s).ctxs = s.ctxs := by
  unfold startNotice
  split <;> rfl

theorem startNext_ctxs (s : State) : (startNext s).ctxs = s.ctxs := by
  unfold startNext startFirst startLater
  split
  · split
    · rfl
    · exact startMain_ctxs s
  · split
    · rfl
    · split
      · exact startMain_ctxs s
      · exact startNotice_ctxs s
      · rfl

theorem finishFrame_ctxs (x : Transmission) (s : State) : (finishFrame x s).ctxs = s.ctxs := by
  unfold finishFrame
  split
  · rw [settleClaims_ctxs]
    unfold noteRestart
    split <;> rfl
  · rfl
  · unfold holdSent
    dsimp only
    split
    · exact setInbound_ctxs ..
    · rfl

theorem renewNow_ctxs (q : QueueId) (s : State) : (renewNow q s).ctxs = s.ctxs := by
  unfold renewNow
  dsimp only
  split <;> simp

/-! ### The scheduler -/

theorem passAll_ctxs (ls : List LaneNo) (s : State) : (ls.foldl (fun s l => passOver l s) s).ctxs = s.ctxs := by
  induction ls generalizing s with
  | nil => rfl
  | cons l ls ih => exact ih _

theorem grantTo_linesKept (l : LaneNo) (c : CtxNo) (a : Attachment) (s : State) : LinesKept s (grantTo l c a s) := by
  unfold grantTo
  dsimp only
  refine (LinesKept.of_ctxs (passAll_ctxs (s.waitingLanes.filter (· != l)) s)).trans ?_
  generalize List.foldl (fun s l => passOver l s) s (s.waitingLanes.filter (· != l)) = u
  exact .trans (t := u.setLane l { u.lane l with passOver := 0 }) (.of_ctxs rfl)
    (.trans (setCtx_sameLines (c := c) (x := { u.ctx c with wanted := false, inFlight := true }) rfl rfl) (.of_ctxs rfl))

theorem deliver_ctxs (a : Attachment) (c : CtxNo) (q : Quote) (s : State) : (deliver a c q s).ctxs = s.ctxs := by
  unfold deliver
  split
  · simp [deliverQuote]
  · split
    · unfold deliverSubtotal
      dsimp only
      repeat' split
      all_goals rfl
    · rfl

theorem dealWith_linesKept (q : Snapshot) (s : State) : LinesKept s (dealWith q s) := by
  unfold dealWith
  dsimp only
  repeat' split
  case h_3.isTrue.isTrue => exact setCtx_sameLines rfl rfl
  case h_3.isFalse => exact .trans (setCtx_sameLines (by rfl) (by rfl)) (.of_ctxs (deliver_ctxs ..))
  all_goals exact .refl _

theorem endFlight_linesKept (f : Flight) (s : State) : LinesKept s (endFlight f s) :=
  .trans (t := { s with sched := { s.sched with flight := none } }) (.of_ctxs rfl) (setCtx_sameLines rfl rfl)

theorem endStream_linesKept (l : LaneNo) (st : Stream) (s : State) : LinesKept s (endStream l st s) :=
  .trans (.of_ctxs (by simp)) ((freeCtx_linesKept st.ctx ((releasePinOf st.ctx (placeFrame
    (settleFrameOf l st 0x67 (endPayload st)) (useSlot (.stream l) s))).setStream l none)).trans
      (.of_ctxs (clearLane_ctxs ..)))

theorem expireParked_linesKept (c : CtxNo) (n : Nat) (s : State) : LinesKept s (expireParked c n s) :=
  .trans (t := unlist n (dropReferenceOf c (removeClaimsOf c s))) (.of_ctxs (by simp [unlist]))
    ((freeCtx_linesKept c _).trans (.of_ctxs (raise_ctxs ..)))

theorem expireReservation_linesKept (c : CtxNo) (s : State) : LinesKept s (expireReservation c s) :=
  (removeReservation_linesKept c s).trans ((bumpRevision_linesKept c _).trans (.of_ctxs (raise_ctxs ..)))

end Sys2Proof.Machine


/-! Every command keeps the line lists (R24, R25): the requests with their takes, the steps of the device and the
resets, and the step by the command at its front. -/

namespace Sys2Proof.Machine

/-! ### Requests -/

/-- Every state a step answers with keeps the line lists. -/
def AnswerKeepsLines (s : State) (o : Out) : Prop := ∀ t, o = .next t → LinesKept s t

theorem AnswerKeepsLines.next {s t : State} (h : LinesKept s t) : AnswerKeepsLines s (.next t) := by
  rintro _ ⟨⟩; exact h

theorem whenLive_keepsLines {f : State → State} {s : State} (hf : LinesKept s (f s)) :
    AnswerKeepsLines s (whenLive f s) := by
  unfold whenLive
  split
  · exact .next (.refl s)
  · exact .next hf

/-- A reply and the service of slots after it leave the contexts alone. -/
theorem answerLane_linesKept (k : Byte) (r : Req) (l : LaneNo) (x : State × Answer) :
    LinesKept x.1 (settleClaims (answerLane k r l x)) := by
  refine .of_ctxs ?_
  rw [settleClaims_ctxs]
  unfold answerLane
  split <;> rfl

theorem answerBulk_linesKept (k : Byte) (r : Req) (x : State × Answer) :
    LinesKept x.1 (settleClaims (answerBulk k r x)) := by
  refine .of_ctxs ?_
  rw [settleClaims_ctxs]
  unfold answerBulk
  split <;> rfl

theorem laneTaken_linesKept (f : Frame) (l : LaneNo) (s : State) : LinesKept s (laneTaken f l s) :=
  .of_ctxs (laneTaken_ctxs ..)

theorem bulkTaken_linesKept (f : Frame) (s : State) : LinesKept s (bulkTaken f s) := .of_ctxs (bulkTaken_ctxs ..)

theorem laneBody_linesKept {gate : LaneState → Option OutcomeCode} {len : Nat} {r : Req} {l : LaneNo}
    {body : State → State × Answer} {u : State} (h : LinesKept u (body u).1) :
    LinesKept u (laneBody gate len r l body u).1 := by
  unfold laneBody
  split
  · exact .refl _
  · split
    · exact .refl _
    · split
      · exact h
      · exact .refl _

/-- A lane request keeps the line lists when its body does. -/
theorem laneRequest_keepsLines {k : Byte} {gate : LaneState → Option OutcomeCode} {len : Nat} {r : Req}
    {body : LaneNo → State → State × Answer} {s : State} (hb : ∀ l u, LinesKept u (body l u).1) :
    AnswerKeepsLines s (laneRequest k gate len r body s) := by
  refine whenLive_keepsLines ?_
  split
  · split
    · next ht =>
      rw [takeBulk_eq ht]
      exact (bulkTaken_linesKept ..).trans (answerBulk_linesKept k r (_, _))
    · exact .refl _
  · split
    · split
      · next ht =>
        rw [takeLane_eq ht]
        exact (laneTaken_linesKept ..).trans ((laneBody_linesKept (hb _ _)).trans (answerLane_linesKept ..))
      · exact .refl _
    · exact .refl _

/-- A bulk request keeps the line lists when its body does. -/
theorem bulkRequest_keepsLines {k : Byte} {r : Req} {body : State → State × Answer} {s : State}
    (hb : ∀ u, LinesKept u (body u).1) : AnswerKeepsLines s (bulkRequest k r body s) := by
  refine whenLive_keepsLines ?_
  split
  · split
    · next ht =>
      rw [takeBulk_eq ht]
      exact (bulkTaken_linesKept ..).trans ((hb _).trans (answerBulk_linesKept ..))
    · exact .refl _
  · split
    · split
      · next ht =>
        rw [takeLane_eq ht]
        exact (laneTaken_linesKept ..).trans (answerLane_linesKept k r _ (_, _))
      · exact .refl _
    · exact .refl _

/-- A request on the basket of a lane. -/
theorem basketRequest_keepsLines {k : Byte} {gate : LaneState → Option OutcomeCode} {len : Nat} {r : Req}
    {body : LaneNo → CtxNo → State → State × Answer} {s : State} (hb : ∀ l c u, LinesKept u (body l c u).1) :
    AnswerKeepsLines s (laneRequest k gate len r (fun l => onCtx l (body l)) s) := by
  refine laneRequest_keepsLines fun l u => ?_
  unfold onCtx
  split
  · exact hb ..
  · exact .refl _

/-- A bulk request that checks its length before its body (R188). -/
theorem lengthRequest_keepsLines {k : Byte} {len : Nat} {r : Req} {body : State → State × Answer} {s : State}
    (hb : ∀ u, LinesKept u (body u).1) : AnswerKeepsLines s (bulkRequest k r (withLength len r body) s) := by
  refine bulkRequest_keepsLines fun u => ?_
  unfold withLength
  split
  · exact hb u
  · exact .refl _

/-! ### Steps of the device -/

/-- A step the device makes on a condition, and that leaves the state without it. -/
theorem dueStep_keepsLines {p : State → Prop} [∀ s, Decidable (p s)] {f : State → State} {s : State}
    (hf : LinesKept s (f s)) : AnswerKeepsLines s (whenLive (fun s => if p s then f s else s) s) := by
  refine whenLive_keepsLines ?_
  split
  · exact hf
  · exact .refl _

theorem execGapFault_keepsLines (s : State) : AnswerKeepsLines s (execGapFault s) := by
  unfold execGapFault
  exact dueStep_keepsLines (.of_ctxs (linkFault_ctxs _ (toHunt s)))

theorem execTransmitStart_keepsLines (s : State) : AnswerKeepsLines s (execTransmitStart s) := by
  unfold execTransmitStart
  exact dueStep_keepsLines (.of_ctxs (startNext_ctxs s))

theorem execRenewExpiry_keepsLines (q : QueueId) (s : State) : AnswerKeepsLines s (execRenewExpiry q s) := by
  unfold execRenewExpiry
  exact dueStep_keepsLines (.of_ctxs (renewNow_ctxs q s))

theorem execOutputHoldExpiry_keepsLines (s : State) : AnswerKeepsLines s (execOutputHoldExpiry s) := by
  unfold execOutputHoldExpiry
  exact dueStep_keepsLines (.of_ctxs rfl)

theorem execReservationExpiry_keepsLines (c : CtxNo) (s : State) : AnswerKeepsLines s (execReservationExpiry c s) := by
  unfold execReservationExpiry
  exact dueStep_keepsLines ((expireReservation_linesKept c s).trans (.of_ctxs (settleClaims_ctxs _)))

theorem execIdleWarning_keepsLines (l : LaneNo) (s : State) : AnswerKeepsLines s (execIdleWarning l s) := by
  unfold execIdleWarning
  exact dueStep_keepsLines (.of_ctxs (by simp [warnIdle]))

theorem byte_keepsLines (b : Byte) (s : State) :
    AnswerKeepsLines s (whenLive (fun s => settleClaims (receiveByte b s)) s) :=
  whenLive_keepsLines (.of_ctxs (by rw [settleClaims_ctxs, receiveByte_ctxs]))

theorem execHold_keepsLines (r : Req) (s : State) : AnswerKeepsLines s (execHold r s) :=
  whenLive_keepsLines (.of_ctxs (by rw [settleClaims_ctxs, arrive_ctxs]))

theorem execUnknownKindAnswer_keepsLines (f : Frame) (s : State) :
    AnswerKeepsLines s (execUnknownKindAnswer f s) := by
  refine whenLive_keepsLines ?_
  split
  · split
    · next ht =>
      rw [takeBulk_eq ht]
      exact .of_ctxs (by simp)
    · exact .refl _
  · exact .refl _

theorem execTransmitEnd_keepsLines (s : State) : AnswerKeepsLines s (execTransmitEnd s) := by
  refine whenLive_keepsLines ?_
  split
  · exact .of_ctxs (finishFrame_ctxs ..)
  · exact .refl _

theorem execResolveGrant_keepsLines (s : State) : AnswerKeepsLines s (execResolveGrant s) := by
  refine whenLive_keepsLines ?_
  split
  · exact grantTo_linesKept ..
  · exact .refl _

theorem execResolutionComplete_keepsLines (s : State) : AnswerKeepsLines s (execResolutionComplete s) := by
  refine whenLive_keepsLines ?_
  split
  · exact (endFlight_linesKept ..).trans ((dealWith_linesKept ..).trans (.of_ctxs (settleClaims_ctxs _)))
  · exact .refl _

theorem execOwedSubtotal_keepsLines (l : LaneNo) (s : State) : AnswerKeepsLines s (execOwedSubtotal l s) := by
  refine whenLive_keepsLines ?_
  split
  · split
    · exact .of_ctxs (by simp [setOwed])
    · exact .refl _
  · exact .refl _

theorem execSettlementFrame_keepsLines (l : LaneNo) (s : State) : AnswerKeepsLines s (execSettlementFrame l s) := by
  refine whenLive_keepsLines ?_
  split
  · split
    · exact .of_ctxs (by simp [placeSettleFrame])
    · exact .refl _
  · exact .refl _

theorem execSettleEnd_keepsLines (l : LaneNo) (s : State) : AnswerKeepsLines s (execSettleEnd l s) := by
  refine whenLive_keepsLines ?_
  split
  · split
    · exact (endStream_linesKept ..).trans (.of_ctxs (settleClaims_ctxs _))
    · exact .refl _
  · exact .refl _

theorem execAutoPark_keepsLines (l : LaneNo) (s : State) : AnswerKeepsLines s (execAutoPark l s) := by
  refine whenLive_keepsLines ?_
  split
  · split
    · next c _ => exact (parkBasket_linesKept l c s).trans (.of_ctxs (by simp [autoPark]))
    · exact .refl _
  · exact .refl _

theorem execParkExpiry_keepsLines (c : CtxNo) (s : State) : AnswerKeepsLines s (execParkExpiry c s) := by
  refine whenLive_keepsLines ?_
  split
  · exact expireParked_linesKept ..
  · exact .refl _

/-- A reset leaves every line list empty (R13). -/
theorem reset_linesKept {s t : State} (h : t.ctxs = State.reset.ctxs) : LinesKept s t :=
  ⟨fun c _ => by rw [ctx_congr h, reset_ctx]; exact initial_linesLaw⟩

theorem execSoftReset_keepsLines (x : BitVec 2) (s : State) : AnswerKeepsLines s (execSoftReset x s) := by
  unfold execSoftReset
  exact dueStep_keepsLines (reset_linesKept rfl)

/-! ### The step -/

theorem exec_keepsLines (i : Instr) (s : State) : AnswerKeepsLines s (exec i s) := by
  cases i with
  | openBasket r => exact laneRequest_keepsLines fun _ _ => openBody_linesKept ..
  | addLine r => exact basketRequest_keepsLines fun _ _ _ => addLineBody_linesKept ..
  | setQty r => exact basketRequest_keepsLines fun _ _ _ => onLine_linesKept fun _ _ => setQtyBody_linesKept ..
  | voidLine r => exact basketRequest_keepsLines fun _ _ _ => onLine_linesKept fun _ hm => voidLineBody_linesKept hm
  | override r => exact basketRequest_keepsLines fun _ _ _ => onLine_linesKept fun _ hm => overrideBody_linesKept _ hm
  | clearOverride r =>
    exact basketRequest_keepsLines fun _ _ _ => onLine_linesKept fun _ hm => clearOverrideBody_linesKept hm
  | presentCoupon r => exact basketRequest_keepsLines fun _ _ _ => presentCouponBody_linesKept ..
  | withdrawCoupon r => exact basketRequest_keepsLines fun _ _ _ => withdrawCouponBody_linesKept ..
  | attachAccount r => exact basketRequest_keepsLines fun _ _ _ => attachBody_linesKept ..
  | detachAccount r => exact basketRequest_keepsLines fun _ _ _ => detachBody_linesKept ..
  | redeem r => exact basketRequest_keepsLines fun _ _ _ => redeemBody_linesKept ..
  | cancelRedeem r => exact basketRequest_keepsLines fun _ _ _ => cancelRedeemBody_linesKept ..
  | setTracking r => exact basketRequest_keepsLines fun _ _ _ => setTrackingBody_linesKept ..
  | total r => exact basketRequest_keepsLines fun _ _ _ => totalBody_linesKept ..
  | finalize r => exact basketRequest_keepsLines fun _ _ _ => finalizeBody_linesKept ..
  | voidBasket r => exact basketRequest_keepsLines fun _ _ _ => voidBasketBody_linesKept ..
  | park r => exact basketRequest_keepsLines fun _ _ _ => parkBasket_linesKept ..
  | recallBasket r => exact laneRequest_keepsLines fun _ _ => recallBody_linesKept ..
  | queryBasket r => exact basketRequest_keepsLines fun _ _ _ => queryBasketBody_linesKept ..
  | bankBegin r => exact lengthRequest_keepsLines fun _ => .of_ctxs (bankBeginBody_ctxs ..)
  | offerPut r => exact bulkRequest_keepsLines fun _ => .of_ctxs (onStaging_ctxs fun _ => offerPutBody_ctxs ..)
  | offersClose r => exact lengthRequest_keepsLines fun _ => .of_ctxs (onStaging_ctxs fun _ => offersCloseBody_ctxs ..)
  | schedulePut r => exact lengthRequest_keepsLines fun _ => .of_ctxs (onStaging_ctxs fun _ => schedulePutBody_ctxs ..)
  | bankCommit r => exact lengthRequest_keepsLines fun _ => .of_ctxs (bankCommitBody_ctxs _)
  | bankAbandon r => exact lengthRequest_keepsLines fun _ => .of_ctxs (onStaging_ctxs fun _ => setBank_ctxs ..)
  | authorityLoad r => exact bulkRequest_keepsLines fun _ => .of_ctxs (authorityLoadBody_ctxs ..)
  | authorityRemove r => exact lengthRequest_keepsLines fun _ => .of_ctxs (authorityRemoveBody_ctxs ..)
  | authorityClear r => exact lengthRequest_keepsLines fun _ => .of_ctxs rfl
  | accountBalance r => exact lengthRequest_keepsLines fun _ => accountBalanceBody_linesKept ..
  | queryAccount r => exact lengthRequest_keepsLines fun _ => .of_ctxs (by rw [queryAccountBody_state])
  | queryClaim r => exact lengthRequest_keepsLines fun _ => .of_ctxs (by rw [queryClaimBody_state])
  | configure r => exact lengthRequest_keepsLines fun _ => .of_ctxs (configureBody_ctxs ..)
  | dayOpen r => exact lengthRequest_keepsLines fun _ => .of_ctxs (dayOpenBody_ctxs ..)
  | clearConditions r => exact lengthRequest_keepsLines fun _ => .of_ctxs (clearConditionsBody_ctxs ..)
  | setMask r => exact lengthRequest_keepsLines fun _ => .of_ctxs (setMaskBody_ctxs ..)
  | identify r => exact lengthRequest_keepsLines fun _ => .refl _
  | status r => exact lengthRequest_keepsLines fun _ => .of_ctxs (by rw [statusBody_state])
  | restart r => exact lengthRequest_keepsLines fun _ => .of_ctxs rfl
  | unknownKindAnswer f => exact execUnknownKindAnswer_keepsLines f s
  | hold r => exact execHold_keepsLines r s
  | frameComplete b => exact byte_keepsLines b s
  | lengthFault b => exact byte_keepsLines b s
  | gapFault => exact execGapFault_keepsLines s
  | transmitStart => exact execTransmitStart_keepsLines s
  | transmitEnd => exact execTransmitEnd_keepsLines s
  | renewExpiry q => exact execRenewExpiry_keepsLines q s
  | outputHoldExpiry => exact execOutputHoldExpiry_keepsLines s
  | resolveGrant => exact execResolveGrant_keepsLines s
  | resolutionComplete => exact execResolutionComplete_keepsLines s
  | owedSubtotal l => exact execOwedSubtotal_keepsLines l s
  | settlementFrame l => exact execSettlementFrame_keepsLines l s
  | settleEnd l => exact execSettleEnd_keepsLines l s
  | reservationExpiry c => exact execReservationExpiry_keepsLines c s
  | idleWarning l => exact execIdleWarning_keepsLines l s
  | autoPark l => exact execAutoPark_keepsLines l s
  | parkExpiry c => exact execParkExpiry_keepsLines c s
  | hardReset x => exact .next (reset_linesKept rfl)
  | softReset x => exact execSoftReset_keepsLines x s
  | byteReceived b => exact byte_keepsLines b s
  | resetnLow => exact .next (reset_linesKept rfl)

/-- Settles O6: every command keeps the law of each line list, and the millisecond of an empty queue changes none. -/
theorem lineListsAreKept : Obligations.LineListsAreKept := by
  intro s t h hst c
  unfold step at hst
  split at hst
  · cases hst
    exact h c
  · exact (exec_keepsLines _ _ t hst).law c (h c)

end Sys2Proof.Machine


/-! The requests of chapter 2 that change the lines of a basket (R26 to R32, R37, R110): each by the take that every
request shares, the equations of its body, and the reply. -/

namespace Sys2Proof.Machine

/-! ### A change of the lines answered OK (R7, R15, R37) -/

/-- A change of an attached context with its revision increase, as one write of the context and one of its lane. -/
theorem bumpRevision_setCtx {u : State} {c : CtxNo} {a : Attachment} {x : Context} (hx : x.place = .attached a) :
    bumpRevision c (u.setCtx c x) = (u.setCtx c (revised a x)).setLane a.lane (u.lane a.lane).overtaken := by
  rw [bumpRevision_attached (by rw [ctx_setCtx_same]; exact hx), ctx_setCtx_same, lane_congr (setCtx_lanes ..)]
  simp [State.setCtx]

theorem overtaken_watched {s : State} {l : LaneNo}
    (h : (s.lane l).state = .opened ∨ (s.lane l).state = .totalled) :
    (watched s l).overtaken = { watched s l with state := .opened, subtotalOwed := false } := by
  rcases h with h | h <;> simp [Lane.overtaken, watched, h]

theorem OnBasket.place {s : State} {l : LaneNo} {c : CtxNo} {a : Attachment} (h : OnBasket s l c a) :
    (s.ctx c).place = .attached a := by
  obtain ⟨-, -, hplace, -⟩ := h
  exact hplace

/-- A request on a basket whose body changes its context and answers OK: reply, basket, timers and frame. -/
theorem changed_on {s : State} {l : LaneNo} {c : CtxNo} {a : Attachment} (hb : OnBasket s l c a) (k : Byte) (r : Req)
    {x : Context} (hx : x.place = .attached a) (fields : List Byte) :
    ∃ t, Host.Outcome.next (φ := Fault) (ρ := Refusal) (settleClaims (answerLane k r l
        (bumpRevision c ((laneTaken (r.frame k) l s).setCtx c x), .reply .ok fields))) = .next t ∧
      BasketChanged s t k r l c (revised a x) fields ∧ t.accounts = accountsTouched s c ∧ LaneFrame s t := by
  obtain ⟨hst, hc, -, hal⟩ := hb
  rw [bumpRevision_setCtx hx, hal, laneTaken_lane_on hst, if_pos rfl, overtaken_watched hst]
  have hw := bodyWrote_setCtx_setLane s k r l c (revised a x)
    { watched s l with state := .opened, subtotalOwed := false }
  obtain ⟨t, ht, ha, hctx, hlane, hco, hlo, hacc, hf⟩ := hw.answered (hw.laneRevision hc) .ok fields
  exact ⟨t, ht, ⟨ha, hctx, hco, hlane, hlo⟩, hacc.trans (by simpa using laneTaken_accounts hc), hf⟩

/-- The figures a reply reports are those of the lines written (R37). -/
theorem lineFigures_changed (c : CtxNo) (x : Context) (u : State) :
    lineFigures ((bumpRevision c (u.setCtx c x)).ctx c) = figuresOf x.lines := by
  rw [bumpRevision_ctx, if_pos rfl, ctx_setCtx_same]
  rfl

/-! ### ADD_LINE (R27, R28) -/

theorem addLineBody_bad {p : List Byte} {c : CtxNo} {u : State} {off : Nat}
    (h : firstBad (addLineChecks p) = some off) : addLineBody p c u = (u, badField 0 off) := by
  simp only [addLineBody, h]

theorem addLineBody_full {p : List Byte} {c : CtxNo} {u : State} (h : firstBad (addLineChecks p) = none)
    (hfull : 128 ≤ (u.ctx c).lines.length) :
    addLineBody p c u = (u, .reply .full (enc 1 (u.ctx c).lines.length)) := by
  simp only [addLineBody, h, if_pos hfull]

theorem addLineBody_totalLimit {p : List Byte} {c : CtxNo} {u : State} (h : firstBad (addLineChecks p) = none)
    (hroom : (u.ctx c).lines.length < 128) (hg : maxAmount < (u.ctx c).gross + field p 5 2 * field p 7 4) :
    addLineBody p c u = (u, .reply .totalLimit (enc 4 (u.ctx c).gross)) := by
  simp only [addLineBody, h, if_neg (Nat.not_le_of_lt hroom), if_pos hg]

/-- The context with a line at the end of its list (R28). -/
def Context.withLine (x : Context) (ln : Line) : Context :=
  { x with lines := x.lines ++ [ln], nextLine := x.nextLine + 1 }

theorem addLineBody_ok {p : List Byte} {c : CtxNo} {u : State} (h : firstBad (addLineChecks p) = none)
    (hroom : (u.ctx c).lines.length < 128) (hg : (u.ctx c).gross + field p 5 2 * field p 7 4 ≤ maxAmount) :
    addLineBody p c u =
      (bumpRevision c (u.setCtx c ((u.ctx c).withLine (newLine p (u.ctx c).nextLine))),
        .reply .ok (enc 1 (u.ctx c).nextLine ++
          figuresOf ((u.ctx c).lines ++ [newLine p (u.ctx c).nextLine]))) := by
  have hfig := lineFigures_changed c ((u.ctx c).withLine (newLine p (u.ctx c).nextLine)) u
  simp only [addLineBody, h, if_neg (Nat.not_le_of_lt hroom), if_neg (Nat.not_lt_of_le hg)]
  exact congrArg (fun fig => (_, Answer.reply .ok (enc 1 (u.ctx c).nextLine ++ fig))) hfig

/-- Settles O18: the checks of the body in their order, each with the answer it gives. -/
theorem addLineAppendsALine : Obligations.AddLineAppendsALine := by
  intro s r l c a checks ht hb hlen hchecks
  have he := basketRequest_takes ht hb hlen (fun _ => addLineBody r.payload)
  have hctx : (laneTaken (r.frame 0x02) l s).ctx c = s.ctx c := laneTaken_ctx ..
  have hsame : checks = addLineChecks r.payload := by
    rw [hchecks, Bool.decide_and]; rfl
  subst hsame
  refine ⟨fun off hoff => ?_, fun hok => ?_⟩
  · rw [addLineBody_bad (firstFails_iff.1 hoff)] at he
    obtain ⟨t, ht', ha, -⟩ := answered_on hb 0x02 r .badField ([0] ++ enc 1 off)
    exact ⟨t, he.trans ht', ha⟩
  · have hnone := firstBad_none.2 hok
    refine ⟨fun hroom hg => ?_, fun hfull => ?_, fun hroom hg => ?_⟩
    · rw [addLineBody_ok hnone (hctx ▸ hroom) (hctx ▸ hg), hctx] at he
      obtain ⟨t, ht', hrest⟩ := changed_on hb 0x02 r
        (x := (s.ctx c).withLine (newLine r.payload (s.ctx c).nextLine)) hb.place _
      refine ⟨t, he.trans ht', ?_⟩
      have hopt : (field r.payload 15 1 == 1) = decide (field r.payload 15 1 = 1) := rfl
      simpa only [Context.withLine, newLine, hopt] using hrest
    · rw [addLineBody_full hnone (hctx ▸ hfull), hctx] at he
      obtain ⟨t, ht', ha, -⟩ := answered_on hb 0x02 r .full (enc 1 (s.ctx c).lines.length)
      exact ⟨t, he.trans ht', ha⟩
    · rw [addLineBody_totalLimit hnone (hctx ▸ hroom) (hctx ▸ hg), hctx] at he
      obtain ⟨t, ht', ha, -⟩ := answered_on hb 0x02 r .totalLimit (enc 4 (s.ctx c).gross)
      exact ⟨t, he.trans ht', ha⟩

/-! ### Requests that name a line (R26) -/

theorem onLine_absent {p : List Byte} {c : CtxNo} {u : State} (body : Line → State → State × Answer)
    (h : ∀ y ∈ (u.ctx c).lines, y.number ≠ field p 0 1) : onLine p c body u = (u, badField 0 0) := by
  simp only [onLine, lineNamed_none h]

theorem onLine_voided {p : List Byte} {c : CtxNo} {u : State} {ln : Line} (body : Line → State → State × Answer)
    (hx : LinesLaw (u.ctx c)) (hm : ln ∈ (u.ctx c).lines) (hn : ln.number = field p 0 1) (hv : ln.voided = true) :
    onLine p c body u = (u, voidedLine ln) := by
  simp only [onLine, ← hn, hx.lineNamed hm, hv, if_true]

theorem onLine_active {p : List Byte} {c : CtxNo} {u : State} {ln : Line} (body : Line → State → State × Answer)
    (hx : LinesLaw (u.ctx c)) (hm : ln ∈ (u.ctx c).lines) (hn : ln.number = field p 0 1) (hv : ln.voided = false) :
    onLine p c body u = body ln u := by
  simp only [onLine, ← hn, hx.lineNamed hm, hv, Bool.false_eq_true, if_false]

/-- The context with one of its lines changed (R30, R32, R110). -/
def Context.edited (x : Context) (n : Nat) (f : Line → Line) : Context := { x with lines := editLine x n f }

/-- Writing the list with a changed line in its place is editing that line. -/
theorem changeLines_replaceLine {c : CtxNo} {u : State} {ln : Line} (hx : LinesLaw (u.ctx c))
    (hm : ln ∈ (u.ctx c).lines) {f : Line → Line} (hf : ∀ y, (f y).number = y.number) :
    changeLines c (replaceLine (f ln) (u.ctx c).lines) u =
      bumpRevision c (u.setCtx c ((u.ctx c).edited ln.number f)) := by
  rw [hx.replaceLine hm hf]
  rfl

/-! ### SET_QTY (R29 to R31) -/

/-- A line with another quantity (R30). -/
def Line.withQty (qty : Nat) (ln : Line) : Line := { ln with qty := qty }

theorem setQtyBody_bad {p : List Byte} {c : CtxNo} {ln : Line} {u : State}
    (h : field p 1 2 = 0 ∨ maxQty < field p 1 2) : setQtyBody p c ln u = (u, badField 0 1) := by
  have hq : ¬ (1 ≤ field p 1 2 ∧ field p 1 2 ≤ maxQty) := by omega
  simp only [setQtyBody, if_neg hq]

section
variable {p : List Byte} {c : CtxNo} {ln : Line} {u : State} {ls : List Line}

theorem setQtyBody_totalLimit (hq : 1 ≤ field p 1 2 ∧ field p 1 2 ≤ maxQty)
    (hls : replaceLine (ln.withQty (field p 1 2)) (u.ctx c).lines = ls) (hg : maxAmount < grossOf ls) :
    setQtyBody p c ln u = (u, .reply .totalLimit (enc 4 (u.ctx c).gross)) := by
  subst hls
  simp only [setQtyBody, if_pos hq]
  exact if_pos hg

theorem setQtyBody_capped (hq : 1 ≤ field p 1 2 ∧ field p 1 2 ≤ maxQty)
    (hls : replaceLine (ln.withQty (field p 1 2)) (u.ctx c).lines = ls) (hg : grossOf ls ≤ maxAmount) {sup : Nat}
    (hc : capRefusal u ln (ln.withQty (field p 1 2)) ls = some sup) :
    setQtyBody p c ln u = (u, .reply .limit (enc 1 ln.number ++ enc 3 sup)) := by
  subst hls
  unfold Line.withQty at hc hg
  simp only [setQtyBody, if_pos hq, if_neg (Nat.not_lt_of_le hg), hc]

theorem setQtyBody_ok (hq : 1 ≤ field p 1 2 ∧ field p 1 2 ≤ maxQty)
    (hls : replaceLine (ln.withQty (field p 1 2)) (u.ctx c).lines = ls) (hg : grossOf ls ≤ maxAmount)
    (hc : capRefusal u ln (ln.withQty (field p 1 2)) ls = none) :
    setQtyBody p c ln u = (changeLines c ls u,
      .reply .ok (enc 1 ln.number ++ enc 2 (field p 1 2) ++ figuresOf ls)) := by
  have hfig : lineFigures ((changeLines c ls u).ctx c) = figuresOf ls := lineFigures_changed ..
  subst hls
  unfold Line.withQty at hc hg hfig ⊢
  simp only [setQtyBody, if_pos hq, if_neg (Nat.not_lt_of_le hg), hc, hfig]

end

theorem capRefusal_some {u : State} {old new : Line} {ls : List Line} {o : Override} (ho : old.override = some o)
    (hq : old.qty < new.qty) (hc : u.capOf o.supervisor < cumulative o.supervisor ls) :
    capRefusal u old new ls = some o.supervisor := by
  simp only [capRefusal, ho, if_pos (And.intro hq hc)]

theorem capRefusal_none {u : State} {old new : Line} {ls : List Line}
    (h : ∀ o, old.override = some o → old.qty < new.qty → cumulative o.supervisor ls ≤ u.capOf o.supervisor) :
    capRefusal u old new ls = none := by
  unfold capRefusal
  split
  · next o ho => exact if_neg fun ⟨hq, hc⟩ => Nat.not_lt_of_le (h o ho hq) hc
  · rfl

theorem laneTaken_capOf (f : Frame) (l : LaneNo) (s : State) (id : Nat) :
    (laneTaken f l s).capOf id = s.capOf id := by
  simp [State.capOf, State.supervisor]

/-- Settles O19: the checks of the body in their order, on the list with the line edited. -/
theorem setQtyReplacesTheQuantity : Obligations.SetQtyReplacesTheQuantity := by
  intro s r l c a ln qty ls ht hb hlen hx hm hv hn hqty hls
  have hctx : (laneTaken (r.frame 0x03) l s).ctx c = s.ctx c := laneTaken_ctx ..
  have he := basketRequest_takes ht hb hlen (fun _ c => onLine r.payload c (setQtyBody r.payload c))
  rw [onLine_active _ (hctx ▸ hx) (hctx ▸ hm) hn.symm hv] at he
  have hrep : replaceLine (ln.withQty (field r.payload 1 2)) ((laneTaken (r.frame 0x03) l s).ctx c).lines = ls := by
    rw [hctx, hls, hqty]
    exact hx.replaceLine hm fun _ => rfl
  subst hqty
  refine ⟨fun hbad => ?_, fun h1 h2 hg => ?_, fun h1 h2 hg => ⟨fun o ho hlt hcap => ?_, fun hcap => ?_⟩⟩
  · rw [setQtyBody_bad hbad] at he
    obtain ⟨t, ht', ha, -⟩ := answered_on hb 0x03 r .badField [0, 1]
    exact ⟨t, he.trans ht', ha⟩
  · rw [setQtyBody_totalLimit ⟨h1, h2⟩ hrep hg, hctx] at he
    obtain ⟨t, ht', ha, -⟩ := answered_on hb 0x03 r .totalLimit (enc 4 (s.ctx c).gross)
    exact ⟨t, he.trans ht', ha⟩
  · rw [setQtyBody_capped ⟨h1, h2⟩ hrep hg (capRefusal_some ho hlt (by rwa [laneTaken_capOf]))] at he
    obtain ⟨t, ht', ha, -⟩ := answered_on hb 0x03 r .limit (enc 1 ln.number ++ enc 3 o.supervisor)
    exact ⟨t, he.trans ht', ha⟩
  · rw [setQtyBody_ok ⟨h1, h2⟩ hrep hg
      (capRefusal_none fun o ho hlt => by rw [laneTaken_capOf]; exact hcap o ho hlt), changeLines, hctx] at he
    obtain ⟨t, ht', hrest⟩ := changed_on hb 0x03 r (x := { s.ctx c with lines := ls }) hb.place _
    exact ⟨t, he.trans ht', hrest⟩

/-! ### VOID_LINE and CLEAR_OVERRIDE (R32, R110) -/

theorem voidLineBody_eq {c : CtxNo} {u : State} {ln : Line} (hx : LinesLaw (u.ctx c)) (hm : ln ∈ (u.ctx c).lines) :
    voidLineBody c ln u =
      (bumpRevision c (u.setCtx c ((u.ctx c).edited ln.number fun y => { y with voided := true })),
        .reply .ok (enc 1 ln.number ++ [Line.flags { ln with voided := true }]
          ++ figuresOf (editLine (u.ctx c) ln.number fun y => { y with voided := true }))) := by
  have he := changeLines_replaceLine hx hm (f := fun y => { y with voided := true }) fun _ => rfl
  have hfig := lineFigures_changed c ((u.ctx c).edited ln.number fun y => { y with voided := true }) u
  simp only [voidLineBody, he, hfig]
  rfl

theorem clearOverrideBody_eq {c : CtxNo} {u : State} {ln : Line} (hx : LinesLaw (u.ctx c))
    (hm : ln ∈ (u.ctx c).lines) :
    clearOverrideBody c ln u =
      (bumpRevision c (u.setCtx c ((u.ctx c).edited ln.number fun y => { y with override := none })),
        .reply .ok (enc 1 ln.number ++ enc 3 (match ln.override with | some o => o.supervisor | none => 0))) := by
  have he := changeLines_replaceLine hx hm (f := fun y => { y with override := none }) fun _ => rfl
  simp only [clearOverrideBody, he] <;> rfl

/-- The four requests that name a line make the checks of R26 before their own. -/
theorem naming_arm {i : Instr} {k : Byte} {r : Req} (hk : i.kind? = some k) (hr : i.req? = some r)
    (h : k = 0x03 ∨ k = 0x04 ∨ k = 0x05 ∨ k = 0x06) :
    ∃ body : CtxNo → Line → State → State × Answer, ∀ s, exec i s =
      laneRequest k gateBasket (laneLength k) r (fun l => onCtx l fun c => onLine r.payload c (body c)) s := by
  cases i <;> cases hk <;> cases hr
  case setQty => exact ⟨setQtyBody r.payload, fun _ => rfl⟩
  case voidLine => exact ⟨voidLineBody, fun _ => rfl⟩
  case override => exact ⟨overrideBody r.payload, fun _ => rfl⟩
  case clearOverride => exact ⟨clearOverrideBody, fun _ => rfl⟩
  all_goals exact absurd h (by decide)

/-- Settles O20: the shared first checks once for the four requests, and the two edits by their bodies. -/
theorem namedLinesAreEdited : Obligations.NamedLinesAreEdited := by
  intro s r l c a hb hx
  have hctx : ∀ k, (laneTaken (r.frame k) l s).ctx c = s.ctx c := fun k => laneTaken_ctx ..
  refine ⟨fun i k hk hr hkind ht hlen => ?_, fun ln hm hn hv hlen => ⟨fun ht => ?_, fun ht => ?_⟩⟩
  · obtain ⟨body, hexec⟩ := naming_arm hk hr hkind
    have he := basketRequest_takes ht hb hlen (fun _ c => onLine r.payload c (body c))
    rw [← hexec] at he
    refine ⟨fun habsent => ?_, fun ln hm hn hv => ?_⟩
    · rw [onLine_absent _ (hctx k ▸ habsent)] at he
      obtain ⟨t, ht', ha, -⟩ := answered_on hb k r .badField [0, 0]
      exact ⟨t, he.trans ht', ha⟩
    · rw [onLine_voided _ (hctx k ▸ hx) (hctx k ▸ hm) hn hv] at he
      obtain ⟨t, ht', ha, -⟩ := answered_on hb k r .badState (enc 1 ln.number ++ [ln.flags])
      exact ⟨t, he.trans ht', ha⟩
  · have he := basketRequest_takes ht hb hlen (fun _ c => onLine r.payload c (voidLineBody c))
    rw [onLine_active _ (hctx _ ▸ hx) (hctx _ ▸ hm) hn hv, voidLineBody_eq (hctx _ ▸ hx) (hctx _ ▸ hm), hctx] at he
    obtain ⟨t, ht', hrest⟩ := changed_on hb 0x04 r
      (x := (s.ctx c).edited ln.number fun y => { y with voided := true }) hb.place _
    exact ⟨t, he.trans ht', hrest⟩
  · have he := basketRequest_takes ht hb hlen (fun _ c => onLine r.payload c (clearOverrideBody c))
    rw [onLine_active _ (hctx _ ▸ hx) (hctx _ ▸ hm) hn hv, clearOverrideBody_eq (hctx _ ▸ hx) (hctx _ ▸ hm), hctx] at he
    obtain ⟨t, ht', hrest⟩ := changed_on hb 0x06 r
      (x := (s.ctx c).edited ln.number fun y => { y with override := none }) hb.place _
    exact ⟨t, he.trans ht', hrest⟩

end Sys2Proof.Machine


/-! RESOLVE_GRANT (R60, R136 to R139): the lane the scheduler chooses, the lanes it passes over, and what the grant
writes. -/

namespace Sys2Proof.Machine

/-! ### The lane chosen (R138) -/

theorem normalOrder_eq (s : State) :
    s.normalOrder = s.config.groupOrder.flatMap fun g => allLanes.filter fun m => s.laneGroup m = g := rfl

theorem mem_allLanes (m : LaneNo) : m ∈ allLanes := by revert m; decide

/-- Every lane stands in the normal order, whose groups are all three. -/
theorem mem_normalOrder {s : State} (h : s.config.groupOrder.Perm [.a, .b, .c]) (m : LaneNo) : m ∈ s.normalOrder := by
  have hg : s.laneGroup m ∈ s.config.groupOrder := h.mem_iff.2 (by cases s.laneGroup m <;> simp)
  rw [normalOrder_eq, List.mem_flatMap]
  exact ⟨_, hg, by simp [mem_allLanes]⟩

/-- No lane stands twice in the normal order: a lane is in one group. -/
theorem normalOrder_nodup {s : State} (h : s.config.groupOrder.Perm [.a, .b, .c]) : s.normalOrder.Nodup := by
  have hg : s.config.groupOrder.Nodup := h.nodup_iff.2 (by decide)
  have hl : allLanes.Nodup := by decide
  rw [normalOrder_eq, List.Nodup, List.pairwise_flatMap]
  refine ⟨fun g _ => hl.filter _, hg.imp fun {g g'} hne m hm m' hm' e => hne ?_⟩
  have hmg : s.laneGroup m = g := of_decide_eq_true (List.mem_filter.1 hm).2
  have hmg' : s.laneGroup m' = g' := of_decide_eq_true (List.mem_filter.1 hm').2
  exact hmg.symm.trans ((congrArg s.laneGroup e).trans hmg')

theorem priorityChoice_eq {s : State} {l : LaneNo} (hp : s.config.priority = some l) (hw : s.waiting l = true)
    (h : ¬ (s.sched.previous = .priority ∧ s.sched.aged ≠ [])) : s.priorityChoice = some l := by
  have hn : (s.sched.previous == .priority && !s.sched.aged.isEmpty) = false := by simpa using h
  rw [State.priorityChoice, hp]
  exact if_pos (by rw [hw, hn]; rfl)

theorem priorityChoice_none {s : State}
    (h : ∀ p, s.config.priority = some p → s.waiting p = true → s.sched.previous = .priority ∧ s.sched.aged ≠ []) :
    s.priorityChoice = none := by
  unfold State.priorityChoice
  cases hp : s.config.priority with
  | none => rfl
  | some p =>
    refine if_neg fun hc => ?_
    rw [Bool.and_eq_true] at hc
    obtain ⟨hprev, haged⟩ := h p hp hc.1
    simp [hprev, haged] at hc

/-- The model's choice is the lane R138 names. -/
theorem chosenLane_of_grantGoesTo {s : State} {l : LaneNo} (h : GrantGoesTo s l) : s.chosenLane = some l := by
  unfold State.chosenLane
  rcases h with ⟨hp, hw, hn⟩ | ⟨hp, haged | ⟨haged, hfirst⟩⟩
  · rw [priorityChoice_eq hp hw hn]
  · rw [priorityChoice_none hp, haged]
  · rw [priorityChoice_none hp, haged]
    simpa only [State.waitingLanes, normalOrder_eq, List.head?_filter] using hfirst

theorem chosenLane_none {s : State} (h : ∀ l, s.waiting l = false) : s.chosenLane = none := by
  have hp : s.priorityChoice = none := priorityChoice_none fun p _ hw => by rw [h p] at hw; cases hw
  have ha : s.sched.aged.find? s.waiting = none := List.find?_eq_none.2 fun l _ => by simp [h l]
  rw [State.chosenLane, hp, ha]
  simp [State.waitingLanes, h]

/-! ### The lanes passed over (R139) -/

/-- Passing lanes over writes lane records only. -/
theorem passAll_eq (ls : List LaneNo) (s : State) :
    ls.foldl (fun s l => passOver l s) s = { s with lanes := (ls.foldl (fun s l => passOver l s) s).lanes } := by
  induction ls generalizing s with
  | nil => rfl
  | cons l ls ih => exact ih _

/-- Each lane passed over has its count raised once, and no other lane changes. -/
theorem passAll_lane {ls : List LaneNo} (hd : ls.Nodup) (s : State) (m : LaneNo) :
    (ls.foldl (fun s l => passOver l s) s).lane m =
      if m ∈ ls then { s.lane m with passOver := min 4 ((s.lane m).passOver + 1) } else s.lane m := by
  induction ls generalizing s with
  | nil => rfl
  | cons l ls ih =>
    rw [List.nodup_cons] at hd
    rw [List.foldl_cons, ih hd.2, passOver, lane_setLane]
    by_cases e : m = l
    · subst e; simp [hd.1]
    · simp [e]

/-- The lanes a grant to `l` passes over, in the normal order. -/
theorem othersWaiting_eq (s : State) (l : LaneNo) :
    s.waitingLanes.filter (· != l) = s.normalOrder.filter fun m => s.waiting m && m != l := by
  rw [State.waitingLanes, List.filter_filter]
  exact List.filter_congr fun m _ => Bool.and_comm ..

/-! ### The grant (R60, R137) -/

/-- What a grant writes: the lanes, the context and the scheduler. -/
theorem grantTo_eq (l : LaneNo) (c : CtxNo) (a : Attachment) (s : State) :
    grantTo l c a s =
      let u := (s.waitingLanes.filter (· != l)).foldl (fun s l => passOver l s) s
      { s with
        lanes := (u.setLane l { u.lane l with passOver := 0 }).lanes
        ctxs := (s.setCtx c { s.ctx c with wanted := false, inFlight := true }).ctxs
        sched :=
          { flight := some { lane := l, ctx := c, snapshot := snapshotOf c a s }
            previous := if s.config.priority = some l then .priority else .other
            aged := s.sched.aged.filter (· != l) ++ newlyAged s (s.waitingLanes.filter (· != l)) } } := by
  unfold grantTo
  dsimp only
  rw [passAll_eq]
  rfl

/-- The lane records after a grant to `l`. -/
theorem grantTo_lane {s : State} (hg : s.config.groupOrder.Perm [.a, .b, .c]) (l : LaneNo) (c : CtxNo) (a : Attachment)
    (m : LaneNo) :
    (grantTo l c a s).lane m =
      if m = l then { s.lane l with passOver := 0 }
      else if s.waiting m then { s.lane m with passOver := min 4 ((s.lane m).passOver + 1) } else s.lane m := by
  have hd : (s.waitingLanes.filter (· != l)).Nodup := ((normalOrder_nodup hg).filter _).filter _
  have hm (n : LaneNo) : n ∈ s.waitingLanes.filter (· != l) ↔ s.waiting n = true ∧ n ≠ l := by
    rw [othersWaiting_eq]; simp [mem_normalOrder hg]
  rw [grantTo_eq]
  refine (lane_setLane ..).trans ?_
  rw [passAll_lane hd, passAll_lane hd]
  by_cases e : m = l <;> simp [hm, e]

theorem grantTo_ctx (l : LaneNo) (c : CtxNo) (a : Attachment) (s : State) (d : CtxNo) :
    (grantTo l c a s).ctx d = if d = c then { s.ctx c with wanted := false, inFlight := true } else s.ctx d := by
  rw [grantTo_eq]
  exact ctx_setCtx ..

/-- The lanes that reach 4 at a grant to `l`, in the normal order. -/
theorem newlyAged_eq (s : State) (l : LaneNo) :
    newlyAged s (s.waitingLanes.filter (· != l)) =
      s.normalOrder.filter fun m => (s.waiting m && m != l) && (s.lane m).passOver == 3 := by
  rw [newlyAged, othersWaiting_eq, List.filter_filter]
  exact List.filter_congr fun m _ => Bool.and_comm ..

theorem grantee_eq {s : State} {l : LaneNo} {c : CtxNo} {a : Attachment} (hf : s.sched.flight = none)
    (hl : s.chosenLane = some l) (hc : (s.lane l).ctx = some c) (ha : (s.ctx c).place = .attached a) :
    s.grantee = some (l, c, a) := by
  simp [State.grantee, hf, hl, hc, Context.attachment, ha]

theorem grantee_none {s : State} (h : s.sched.flight ≠ none ∨ ∀ l, s.waiting l = false) : s.grantee = none := by
  unfold State.grantee
  rcases h with hf | hw
  · exact if_pos (Option.isSome_iff_ne_none.2 hf)
  · rw [chosenLane_none hw, ite_self]

theorem execResolveGrant_granted {s : State} (hs : Live s) {l : LaneNo} {c : CtxNo} {a : Attachment}
    (h : s.grantee = some (l, c, a)) : execResolveGrant s = .next (grantTo l c a s) := by
  rw [execResolveGrant, whenLive_live hs, h]

theorem execResolveGrant_idle {s : State} (h : s.grantee = none) : execResolveGrant s = .next s :=
  whenLive_idle fun _ => by rw [h]

/-- Settles O49: the grantee is the lane R138 chooses, and the grant writes what R60, R137 and R139 name. -/
theorem grantTakesTheSnapshot : Obligations.GrantTakesTheSnapshot := by
  intro s hlive
  refine ⟨fun l c a hf hgo hc ha hg => ⟨grantTo l c a s,
    execResolveGrant_granted hlive (grantee_eq hf (chosenLane_of_grantGoesTo hgo) hc ha), ?_⟩,
    fun h => execResolveGrant_idle (grantee_none h)⟩
  refine ⟨?sched, ?ctx, fun d hd => ?_, ?lane, fun m hm => ?_, fun m hne hw => ?_, ?frame⟩
  case sched =>
    have hne : (fun m : LaneNo => decide (m ≠ l)) = (· != l) := funext fun m => decide_not
    rw [grantTo_eq, newlyAged_eq, hne]
    rfl
  case ctx => rw [grantTo_ctx, if_pos rfl]
  case lane => rw [grantTo_lane hg, if_pos rfl]
  case frame => rw [grantTo_eq]
  · rw [grantTo_ctx, if_neg hd]
  · obtain ⟨hw, hne⟩ : s.waiting m = true ∧ m ≠ l := by simpa using hm
    rw [grantTo_lane hg, if_neg hne, if_pos hw]
  · rw [grantTo_lane hg, if_neg hne, if_neg (by simp [hw])]

end Sys2Proof.Machine


/-! The figures of a quote (R65 to R82), each by the figures before it: the nets of the lines, what spend offers, coupons
and points take off their sum, the applied-offer list and the coupon results. -/

namespace Sys2Proof.Machine

/-! ### The chain from the nets to the payable (R74 to R80) -/

theorem applySpends_le (left : Nat) (os : List Offer) : savings (applySpends left os) ≤ left := by
  rw [applySpends_sum]
  exact Nat.min_le_right ..

theorem amountOn_le (k : SnapCoupon) (payable : Nat) : k.amountOn payable ≤ payable := by
  unfold SnapCoupon.amountOn
  split
  · exact Nat.zero_le _
  · split
    · exact Nat.min_le_right ..
    · exact Nat.zero_le _

/-- Coupons take no more than there is to pay (R75). -/
theorem couponAmounts_le (payable : Nat) (ks : List SnapCoupon) : (couponAmounts payable ks).sum ≤ payable := by
  induction ks generalizing payable with
  | nil => exact Nat.zero_le _
  | cons k ks ih =>
    have hk := amountOn_le k payable
    have hks := ih (payable - k.amountOn payable)
    simp only [couponAmounts, List.sum_cons]
    omega

theorem redemptionOn_le (r ppu left : Nat) : redemptionOn r ppu left ≤ left := Nat.min_le_right ..

section
variable (offers : List Offer) (x : Schedule) (q : Snapshot)

theorem resolve_lines :
    (resolve offers x q).lines = (pricedLines (offers.filter q.applicable) q).map (·.result) := rfl

theorem resolve_lineSavings :
    (resolve offers x q).lineSavings = savings ((pricedLines (offers.filter q.applicable) q).flatMap (·.uses)) := rfl

/-- The sum the spend offers come off is that of all nets (R74). -/
theorem resolve_total :
    netSum (fun _ => true) (netsOf q (resolve offers x q)) = ((resolve offers x q).lines.map (·.net)).sum := by
  rw [netsOf_resolve, netSum_priced, resolve_lines, List.map_map]
  rfl

/-- The uses of spend offers behind a quote, by the quote's own nets (R74). -/
theorem figures_spendUses :
    (figures (offers.filter q.applicable) x q).spendUses =
      applySpends ((resolve offers x q).lines.map (·.net)).sum
        (spendOffers (offers.filter q.applicable) (netsOf q (resolve offers x q))) := by
  rw [← resolve_total, netsOf_resolve]
  rfl

theorem resolve_basketSaving :
    (resolve offers x q).basketSaving = savings (figures (offers.filter q.applicable) x q).spendUses := rfl

/-- The amounts of the coupons behind a quote, from the nets less the basket saving (R75). -/
theorem figures_amounts :
    (figures (offers.filter q.applicable) x q).amounts =
      couponAmounts (((resolve offers x q).lines.map (·.net)).sum - (resolve offers x q).basketSaving) q.coupons := by
  rw [← resolve_total, netsOf_resolve]
  rfl

theorem resolve_couponValue :
    (resolve offers x q).couponValue = (figures (offers.filter q.applicable) x q).amounts.sum := rfl

/-- The redemption is made on what step 5 leaves (R77). -/
theorem resolve_redemption :
    (resolve offers x q).redemption = redemptionOn q.redeemable x.redemptionRate
      (((resolve offers x q).lines.map (·.net)).sum - (resolve offers x q).basketSaving
        - (resolve offers x q).couponValue) := by
  rw [← resolve_total, netsOf_resolve]
  rfl

theorem resolve_pointsUsed :
    (resolve offers x q).pointsUsed = pointsFor (resolve offers x q).redemption x.redemptionRate := rfl

theorem resolve_payable :
    (resolve offers x q).payable = ((resolve offers x q).lines.map (·.net)).sum - (resolve offers x q).basketSaving
      - (resolve offers x q).couponValue - (resolve offers x q).redemption := by
  rw [← resolve_total, netsOf_resolve]
  rfl

/-- The payable with what came off the nets is their sum: each step stays within what is left (R74 to R77). -/
theorem resolve_payable_add :
    (resolve offers x q).payable + (resolve offers x q).basketSaving + (resolve offers x q).couponValue
      + (resolve offers x q).redemption = ((resolve offers x q).lines.map (·.net)).sum := by
  have hb : (resolve offers x q).basketSaving ≤ ((resolve offers x q).lines.map (·.net)).sum := by
    rw [resolve_basketSaving, figures_spendUses]
    exact applySpends_le ..
  have hc : (resolve offers x q).couponValue ≤
      ((resolve offers x q).lines.map (·.net)).sum - (resolve offers x q).basketSaving := by
    rw [resolve_couponValue, figures_amounts]
    exact couponAmounts_le ..
  have hr : (resolve offers x q).redemption ≤ ((resolve offers x q).lines.map (·.net)).sum
      - (resolve offers x q).basketSaving - (resolve offers x q).couponValue := by
    rw [resolve_redemption]
    exact redemptionOn_le ..
  rw [resolve_payable]
  omega

/-! ### The applied-offer list (R81) -/

/-- The entries of all offers that applied, of which a quote lists the first 32. -/
def appliedEntries : List Applied :=
  (offers.filter q.applicable).filterMap (appliedEntry (figures (offers.filter q.applicable) x q))

theorem resolve_applied : (resolve offers x q).applied = (appliedEntries offers x q).take 32 := rfl

theorem resolve_notListed : (resolve offers x q).notListed = (appliedEntries offers x q).length - 32 := rfl

variable {offers x q}

theorem entry_of_applied {e : Applied} (h : e ∈ (resolve offers x q).applied) : e ∈ appliedEntries offers x q :=
  List.mem_of_mem_take h

theorem applied_of_entry {e : Applied} (h : e ∈ appliedEntries offers x q) (hn : (resolve offers x q).notListed = 0) :
    e ∈ (resolve offers x q).applied := by
  rw [resolve_applied, take_listed (l := appliedEntries offers x q) hn]
  exact h

/-- Every entry names an applicable offer of the bank. -/
theorem offer_of_entry {e : Applied} (h : e ∈ appliedEntries offers x q) :
    ∃ o ∈ offers.filter q.applicable, o.id = e.offer := by
  obtain ⟨o, ho, he⟩ := List.mem_filterMap.1 h
  exact ⟨o, ho, (appliedEntry_offer he).symm⟩

theorem distinctIds_applicable (hs : offers.Pairwise fun o p => o.id < p.id) :
    DistinctIds (offers.filter q.applicable) :=
  (hs.imp fun h => Nat.ne_of_lt h).filter _

/-- Two entries of one offer are one. -/
theorem entry_unique (hs : offers.Pairwise fun o p => o.id < p.id) {e e' : Applied} (h : e ∈ appliedEntries offers x q)
    (h' : e' ∈ appliedEntries offers x q) (he : e.offer = e'.offer) : e = e' := by
  obtain ⟨o, ho, hid⟩ := offer_of_entry h
  have hd := distinctIds_applicable (q := q) hs
  have h1 := appliedEntry_of_mem hd ho h hid.symm
  have h2 := appliedEntry_of_mem hd ho h' (he.symm.trans hid.symm)
  exact Option.some.inj (h1.symm.trans h2)

/-- The entries stand in the order of the offers of the bank. -/
theorem appliedEntries_sorted (hs : offers.Pairwise fun o p => o.id < p.id) :
    (appliedEntries offers x q).Pairwise fun e f => e.offer < f.offer := by
  refine List.pairwise_filterMap.2 ((hs.filter _).imp fun {o p} hop e he f hf => ?_)
  rw [appliedEntry_offer he, appliedEntry_offer hf]
  exact hop

/-- What the list of a quote says of an offer that applies in a case and not else. -/
theorem applied_of_appliedEntry (hs : offers.Pairwise fun o p => o.id < p.id) {o : Offer}
    (ho : o ∈ offers.filter q.applicable) {applies : Prop} [Decidable applies] {lines saving : Nat}
    (h : appliedEntry (figures (offers.filter q.applicable) x q) o =
      if applies then some { offer := o.id, lines := lines, saving := saving } else none) :
    (applies → (resolve offers x q).notListed = 0 →
      { offer := o.id, lines := lines, saving := saving } ∈ (resolve offers x q).applied) ∧
    ∀ e ∈ (resolve offers x q).applied, e.offer = o.id → applies ∧ e.lines = lines ∧ e.saving = saving := by
  refine ⟨fun hp hn => applied_of_entry (List.mem_filterMap.2 ⟨o, ho, h.trans (if_pos hp)⟩) hn, fun e he hid => ?_⟩
  have hentry := appliedEntry_of_mem (distinctIds_applicable hs) ho (entry_of_applied he) hid
  rw [h] at hentry
  split at hentry
  · next hp =>
    cases hentry
    exact ⟨hp, rfl, rfl⟩
  · cases hentry

/-! ### The coupon results (R76) -/

theorem length_amounts : (figures (offers.filter q.applicable) x q).amounts.length = q.coupons.length := by
  rw [figures_amounts]
  exact (couponAmounts_at ..).1

theorem length_coupons (offers : List Offer) (x : Schedule) (q : Snapshot) :
    (resolve offers x q).coupons.length = q.coupons.length := by
  change ((q.coupons.zip (figures (offers.filter q.applicable) x q).amounts).map _).length = _
  rw [List.length_map, List.length_zip, length_amounts, Nat.min_self]

theorem exists_amount {n : Nat} {k : SnapCoupon} (hk : q.coupons[n]? = some k) :
    ∃ amount, (figures (offers.filter q.applicable) x q).amounts[n]? = some amount := by
  rw [figures_amounts]
  exact ⟨_, (couponAmounts_at ..).2 n k hk⟩

/-- A coupon's result is made from the entries and the amount it applied. -/
theorem resolve_coupon {n : Nat} {k : SnapCoupon} {amount : Nat} (hk : q.coupons[n]? = some k)
    (ha : (figures (offers.filter q.applicable) x q).amounts[n]? = some amount) :
    (resolve offers x q).coupons[n]? = some (couponResult (appliedEntries offers x q) k amount) := by
  have hz : (q.coupons.zip (figures (offers.filter q.applicable) x q).amounts)[n]? = some (k, amount) :=
    List.getElem?_zip_eq_some.2 ⟨hk, ha⟩
  change ((q.coupons.zip (figures (offers.filter q.applicable) x q).amounts).map _)[n]? = _
  rw [List.getElem?_map, hz]
  rfl

/-- The result of a store-value coupon is what it applied. -/
theorem couponResult_storeValue {all : List Applied} {k : SnapCoupon} {value least : Nat}
    (h : k.kind = .storeValue value least) (amount : Nat) :
    couponResult all k amount = if amount = 0 then .notApplied else .applied amount := by
  simp only [couponResult, h]

theorem couponResult_dormant {all : List Applied} {k : SnapCoupon} {id : Nat} (h : k.kind = .offerKey id)
    (ha : k.active = false) (amount : Nat) : couponResult all k amount = .dormant := by
  simp [couponResult, h, ha]

/-- An ACTIVE key coupon reports the saving of its offer's entry. -/
theorem couponResult_key (hs : offers.Pairwise fun o p => o.id < p.id) {e : Applied} (he : e ∈ appliedEntries offers x q)
    (amount : Nat) :
    couponResult (appliedEntries offers x q) { kind := .offerKey e.offer, active := true } amount = .applied e.saving := by
  have hfind : (appliedEntries offers x q).find? (·.offer == e.offer) = some e := by
    cases hf : (appliedEntries offers x q).find? (·.offer == e.offer) with
    | none => exact absurd (List.find?_eq_none.1 hf e he) (by simp)
    | some e' =>
      have hid : e'.offer = e.offer := by simpa using List.find?_some hf
      rw [entry_unique hs (List.mem_of_find?_eq_some hf) he hid]
  simp [couponResult, hfind]

/-- An ACTIVE key coupon whose offer has no entry is NOT_APPLIED. -/
theorem couponResult_key_absent {all : List Applied} {id : Nat} (h : ∀ e ∈ all, e.offer ≠ id) (amount : Nat) :
    couponResult all { kind := .offerKey id, active := true } amount = .notApplied := by
  have hfind : all.find? (·.offer == id) = none := List.find?_eq_none.2 fun e he => by simpa using h e he
  simp [couponResult, hfind]

end

end Sys2Proof.Machine


/-! Which offers take part in a quote (R62, R63), and what a key coupon reports of its offer (R76). -/

namespace Sys2Proof.Machine

/-! ### Which offers apply (R62, R63) -/

theorem keyed_iff (q : Snapshot) (id : Nat) :
    q.keyed id = true ↔ ∃ k ∈ q.coupons, k.active = true ∧ k.kind = .offerKey id := by
  have hkey (k : SnapCoupon) :
      (match k.kind with | .offerKey o => o == id | .storeValue _ _ => false) = true ↔ k.kind = .offerKey id := by
    cases k.kind <;> simp
  simp only [Snapshot.keyed, List.any_eq_true, Bool.and_eq_true]
  exact exists_congr fun k => and_congr_right fun _ => and_congr_right fun _ => hkey k

/-- An offer's gate is met, as R63 says it. -/
def Snapshot.MeetsGate (q : Snapshot) (o : Offer) : Prop :=
  match o.gate with
  | .none => True
  | .coupon => ∃ k ∈ q.coupons, k.active = true ∧ k.kind = .offerKey o.id
  | .tierMin tier => ∃ x, q.account = some x ∧ tier ≤ x.tier
  | .trade => ∃ x, q.account = some x ∧ x.trade = true

theorem gateMet_iff (q : Snapshot) (o : Offer) : q.gateMet o = true ↔ q.MeetsGate o := by
  unfold Snapshot.gateMet Snapshot.MeetsGate
  cases o.gate with
  | none => simp
  | coupon => exact keyed_iff q o.id
  | tierMin t => cases q.account <;> simp
  | trade => cases q.account <;> simp

theorem applicable_iff (q : Snapshot) (o : Offer) :
    q.applicable o = true ↔ o.firstDay ≤ q.day ∧ q.day ≤ o.lastDay ∧ q.MeetsGate o := by
  rw [← gateMet_iff, Snapshot.applicable, Bool.and_eq_true, Bool.and_eq_true, decide_eq_true_iff, decide_eq_true_iff,
    and_assoc]

/-- An offer outside the applicable ones does not change the quote. -/
theorem resolve_applicable (offers : List Offer) (x : Schedule) (q : Snapshot) :
    resolve (offers.filter q.applicable) x q = resolve offers x q := by
  simp only [resolve, List.filter_filter, Bool.and_self]

/-- Settles O55: the quote takes the applicable offers once, each listed entry comes from one of them, and a key coupon
looks its offer up among the entries. -/
theorem onlyApplicableOffersTakePart : Obligations.OnlyApplicableOffersTakePart := by
  rintro s q v rfl
  refine ⟨(resolve_applicable ..).symm, applicable_iff q, fun e he => ?_,
    fun hs n id hk => ⟨fun e he hid => ?_, fun hn hno => ?_⟩⟩
  · obtain ⟨o, ho, hid⟩ := offer_of_entry (entry_of_applied he)
    obtain ⟨hmem, happ⟩ := List.mem_filter.1 ho
    exact ⟨o, hmem, hid, happ⟩
  · obtain ⟨amount, ha⟩ := exists_amount (x := s.scheduleOf q.bank) (offers := (s.bank q.bank).offers) hk
    subst hid
    exact (resolve_coupon hk ha).trans (congrArg some (couponResult_key hs (entry_of_applied he) amount))
  · obtain ⟨amount, ha⟩ := exists_amount (x := s.scheduleOf q.bank) (offers := (s.bank q.bank).offers) hk
    refine (resolve_coupon hk ha).trans (congrArg some (couponResult_key_absent (fun e he => ?_) amount))
    exact hno e (applied_of_entry he hn)

end Sys2Proof.Machine


/-! From the gross to the payable (R65, R70 to R72, R77, R80): what each line saves above its floor, the sum of all
lines, and the redemption on what the coupons leave. -/

namespace Sys2Proof.Machine

/-! ### The nets of the lines (R65, R70 to R72) -/

/-- The prices of a line as R27 and R108 allow them. -/
def SnapLine.PricesLawful (l : SnapLine) : Prop := l.floor ≤ l.list ∧ ∀ p, l.override = some p → p ≤ l.list

theorem savings_append (us vs : List Use) : savings (us ++ vs) = savings us + savings vs := by
  simp [savings]

/-- The exclusive saving of a line is cut to the room above its floor (R70). -/
theorem exclusiveUses_le (os : List Offer) (all : List SnapLine) (us : List Use) (l : SnapLine) :
    savings (exclusiveUses os all us l) ≤ l.roomIn l.amount := by
  unfold exclusiveUses exclusiveChoice
  cases pickBest (·.saving l l.amount) (exclusiveCandidates os all us l) with
  | none => exact Nat.zero_le _
  | some o =>
    by_cases hc : min (o.saving l l.amount) (l.roomIn l.amount) = 0
    · simp only [if_pos hc]
      exact Nat.zero_le _
    · simp only [if_neg hc]
      exact Nat.min_le_right ..

/-- The stackable savings of a line stay within the room they start with (R71). -/
theorem stack_le (l : SnapLine) (base left : Nat) (us : List Use) (os : List Offer) :
    savings (stack l base left us os) ≤ left := by
  induction os generalizing left us with
  | nil => exact Nat.zero_le _
  | cons o os ih =>
    unfold stack
    dsimp only
    split
    · next hc =>
      have hrest := ih (left - min (o.saving l base) left)
        (us ++ [{ offer := o.id, qty := l.qty, saving := min (o.saving l base) left }])
      have hcut : min (o.saving l base) left ≤ left := Nat.min_le_right ..
      simp only [savings, List.map_cons, List.sum_cons] at hrest ⊢
      omega
    · exact ih ..

/-- A line's number goes with its result. -/
theorem priceLine_number (os : List Offer) (all : List SnapLine) (us : List Use) (l : SnapLine) :
    (priceLine os all us l).result.line = l.number := by
  unfold priceLine
  split
  · rfl
  · split <;> rfl

/-- What an eligible line saves, its net and its floor: both kinds of savings are cut to the room above the floor. -/
theorem priceEligible_net (os : List Offer) (all : List SnapLine) (us : List Use) {l : SnapLine}
    (hf : l.floor ≤ l.list) :
    (priceEligible os all us l).result.net + savings (priceEligible os all us l).uses = l.amount ∧
      l.qty * l.floor ≤ (priceEligible os all us l).result.net := by
  have hfloor : l.qty * l.floor ≤ l.amount := Nat.mul_le_mul_left _ hf
  have hex := exclusiveUses_le os all us l
  have hst : savings (stackedUses os all us l) ≤ l.roomIn (l.amount - savings (exclusiveUses os all us l)) := stack_le ..
  rw [priceEligible_eq, savings_append]
  unfold SnapLine.roomIn at hex hst
  dsimp only
  omega

/-- A line's net, its savings and its override reduction make up its gross amount (R65, R72). -/
theorem priceLine_net_add (os : List Offer) (all : List SnapLine) (us : List Use) {l : SnapLine}
    (h : l.PricesLawful) :
    (priceLine os all us l).result.net + savings (priceLine os all us l).uses + l.reduction = l.amount := by
  obtain ⟨hf, hover⟩ := h
  unfold priceLine SnapLine.reduction
  cases ho : l.override with
  | some p =>
    have hp : l.qty * p + l.qty * (l.list - p) = l.qty * l.list := by
      rw [← Nat.mul_add, Nat.add_sub_cancel' (hover p ho)]
    simpa [savings, SnapLine.amount] using hp
  | none =>
    dsimp only
    split
    · simp [savings]
    · exact (priceEligible_net os all us hf).1

/-- The net of a line that is not overridden lies between its floor and its gross amount. -/
theorem priceLine_net_bounds (os : List Offer) (all : List SnapLine) (us : List Use) {l : SnapLine}
    (hf : l.floor ≤ l.list) (ho : l.override = none) :
    l.qty * l.floor ≤ (priceLine os all us l).result.net ∧ (priceLine os all us l).result.net ≤ l.amount := by
  simp only [priceLine, ho]
  split
  · exact ⟨Nat.mul_le_mul_left _ hf, Nat.le_refl _⟩
  · obtain ⟨hsum, hfloor⟩ := priceEligible_net os all us hf
    exact ⟨hfloor, by omega⟩

/-- The nets of lines priced one after the other, their savings and their override reductions make up their gross
amounts. -/
theorem priceLines_net_add (os : List Offer) (all : List SnapLine) (us : List Use) {ls : List SnapLine}
    (h : ∀ l ∈ ls, l.PricesLawful) :
    ((priceLines os all us ls).map (·.result.net)).sum + savings ((priceLines os all us ls).flatMap (·.uses))
      + (ls.map SnapLine.reduction).sum = (ls.map SnapLine.amount).sum := by
  induction ls generalizing us with
  | nil => rfl
  | cons l ls ih =>
    have hl := priceLine_net_add os all us (h l List.mem_cons_self)
    have hls := ih (us ++ (priceLine os all us l).uses) fun m hm => h m (List.mem_cons_of_mem _ hm)
    simp only [priceLines, List.map_cons, List.sum_cons, List.flatMap_cons, savings_append]
    omega

/-- The nets of a quote with line savings and override reduction make up its gross (R80). -/
theorem resolve_gross (offers : List Offer) (x : Schedule) {q : Snapshot} (h : ∀ l ∈ q.lines, l.PricesLawful) :
    ((resolve offers x q).lines.map (·.net)).sum + (resolve offers x q).lineSavings
      + (resolve offers x q).overrideReduction = (resolve offers x q).gross := by
  have hn := priceLines_net_add (offers.filter q.applicable) q.lines [] h
  rw [resolve_lines, List.map_map]
  exact hn

/-- The result of a line in a quote is its pricing after the uses on the lines before it. -/
theorem resolve_line (offers : List Offer) (x : Schedule) {q : Snapshot} {n : Nat} {l : SnapLine}
    (h : q.lines[n]? = some l) :
    ∃ us, (resolve offers x q).lines[n]? = some (priceLine (offers.filter q.applicable) q.lines us l).result := by
  have hp := (priceLines_at (offers.filter q.applicable) q.lines [] q.lines).2 n l h
  rw [resolve_lines, List.getElem?_map, pricedLines, hp]
  exact ⟨_, rfl⟩

/-- Settles O54: the reductions of the lines lead from the gross to the nets, those of the basket from the nets to the
payable, and each line is priced within its floor. -/
theorem payableIsGrossLessTheReductions : Obligations.PayableIsGrossLessTheReductions := by
  rintro offers x q v rfl hlaw
  refine ⟨?_, rfl, ?_, ?_, List.length_take_le _ _, fun n l hl => ?_⟩
  · have hpay := resolve_payable_add offers x q
    have hgross := resolve_gross offers x hlaw
    omega
  · rw [resolve_lines, List.length_map, length_pricedLines]
  · rw [length_coupons]
  · obtain ⟨us, hline⟩ := resolve_line offers x hl
    refine ⟨_, hline, priceLine_number .., fun p hp => ?_, fun ho hn => ?_, fun ho => ?_⟩
    · simp only [priceLine, hp]
    · simp only [priceLine, ho, hn, if_pos, SnapLine.amount]
    · exact priceLine_net_bounds _ _ _ (hlaw l (List.mem_of_getElem? hl)).1 ho

/-! ### The redemption (R77) -/

/-- A redemption at a rate costs no more points than are reserved. -/
theorem pointsFor_redemptionOn_le (r ppu left : Nat) :
    pointsFor (redemptionOn r ppu left) ppu ≤ r := by
  have hmul : redemptionOn r ppu left * ppu ≤ r * 100 :=
    calc redemptionOn r ppu left * ppu ≤ r * 100 / ppu * ppu := Nat.mul_le_mul_right _ (Nat.min_le_left ..)
      _ ≤ r * 100 := Nat.div_mul_le_self ..
  unfold pointsFor
  omega

/-- Points used are the hundredths rounded up. -/
theorem pointsFor_eq (redemption ppu : Nat) :
    pointsFor redemption ppu =
      redemption * ppu / 100 + (if redemption * ppu % 100 = 0 then 0 else 1) := by
  unfold pointsFor
  split <;> omega

theorem redemptionOn_zero (ppu left : Nat) : redemptionOn 0 ppu left = 0 := by simp [redemptionOn]

/-- Settles O59: what is left of the gross is what step 5 leaves of the nets, and on that the redemption is made. -/
theorem redemptionFollowsTheRate : Obligations.RedemptionFollowsTheRate := by
  rintro offers x q v r ppu left rfl rfl - hlaw rfl hleft
  have hpay := resolve_payable_add offers x q
  have hgross := resolve_gross offers x hlaw
  have hred : (resolve offers x q).redemption = redemptionOn q.redeemable x.redemptionRate left := by
    rw [resolve_redemption]
    congr 1
    omega
  have hpoints := resolve_pointsUsed offers x q
  refine ⟨hred, hpoints.trans (pointsFor_eq ..), by omega, ?_, ?_, fun hr => ?_⟩
  · rw [hred]
    exact redemptionOn_le ..
  · rw [hpoints, hred]
    exact pointsFor_redemptionOn_le ..
  · have hz : (resolve offers x q).redemption = 0 := by
      rw [hred, Snapshot.redeemable, hr, redemptionOn_zero]
    exact ⟨hz, by rw [hpoints, hz]; simp [pointsFor]⟩

end Sys2Proof.Machine


/-! The line offers of a quote (R64 to R72): the lines priced one after the other, and the entry of each line offer in the
applied-offer list (R81). -/

namespace Sys2Proof.Machine

/-! ### Line offers (R66 to R72, R81) -/

/-- The entry of a line offer has its uses on the lines and their total. -/
theorem appliedEntry_line (f : Figures) {o : Offer} (h : PerLine o ∨ o.kind = .qtyBreak) :
    appliedEntry f o =
      if f.lineUses.filter (fun u => decide (u.offer = o.id)) ≠ [] then
        some { offer := o.id, lines := (f.lineUses.filter fun u => decide (u.offer = o.id)).length
               saving := ((f.lineUses.filter fun u => decide (u.offer = o.id)).map (·.saving)).sum }
      else none := by
  have hb : (fun u : Use => u.offer == o.id) = fun u => decide (u.offer = o.id) := rfl
  unfold PerLine at h
  rcases h with (hk | hk) | hk <;>
    simp only [appliedEntry, hk, hb, List.isEmpty_iff, ne_eq, ite_not, savings]

/-- The n-th line of a snapshot is priced after the uses on the lines before it (R65 to R72). -/
theorem pricedLines_priced {os : List Offer} (hd : DistinctIds os) {q : Snapshot} {n : Nat} {l : SnapLine}
    {y : PricedLine} (hl : q.lines[n]? = some l) (hy : (pricedLines os q)[n]? = some y) :
    LinePriced os q.lines (((pricedLines os q).take n).flatMap (·.uses)) l y := by
  have hp := (priceLines_at os q.lines [] q.lines).2 n l hl
  rw [List.nil_append] at hp
  obtain rfl := Option.some.inj (hp.symm.trans hy)
  exact priceLine_priced hd ..

/-- Settles O56: the lines priced one after the other, and for each line offer the entry of its uses. -/
theorem lineOffersArePricedLineByLine : Obligations.LineOffersArePricedLineByLine := by
  rintro offers os x q v hs rfl rfl
  refine ⟨(appliedEntries_sorted hs).sublist (List.take_sublist ..), fun hlen => ?_,
    pricedLines (offers.filter q.applicable) q, length_pricedLines .., resolve_lines .., resolve_lineSavings ..,
    fun n l y hl hy => pricedLines_priced (distinctIds_applicable hs) hl hy, fun o ho hkind us hus => ?_⟩
  · rw [resolve_applied, List.length_take] at hlen
    rw [resolve_notListed]
    omega
  · subst hus
    exact applied_of_appliedEntry hs ho (appliedEntry_line (figures (offers.filter q.applicable) x q) hkind)

end Sys2Proof.Machine


/-! The spend offers of a quote and the coupons after them (R73 to R76): what each gives in its turn, and the entry of each
spend offer in the applied-offer list (R81). -/

namespace Sys2Proof.Machine

/-! ### Spend offers (R73, R74, R81) -/

theorem appliedEntry_spend (f : Figures) {o : Offer} (h : o.kind = .spendOff) :
    appliedEntry f o =
      (f.spendUses.find? (·.offer == o.id)).map fun u => { offer := o.id, lines := 0, saving := u.saving } := by
  simp only [appliedEntry, h]
  cases f.spendUses.find? (·.offer == o.id) <;> rfl

/-- Every use of a spend offer is one of an offer that was taken. -/
theorem offer_of_applySpends {left : Nat} {os : List Offer} {u : Use} (h : u ∈ applySpends left os) :
    ∃ o ∈ os, u.offer = o.id := by
  induction os generalizing left with
  | nil => cases h
  | cons o os ih =>
    unfold applySpends at h
    dsimp only at h
    have tail {left : Nat} (h : u ∈ applySpends left os) : ∃ p ∈ o :: os, u.offer = p.id := by
      obtain ⟨p, hp, hu⟩ := ih h
      exact ⟨p, List.mem_cons_of_mem _ hp, hu⟩
    split at h
    · exact tail h
    · rcases List.mem_cons.1 h with rfl | h
      · exact ⟨o, List.mem_cons_self, rfl⟩
      · exact tail h

/-- The spend offers taken have distinct ids. -/
theorem distinctIds_spendOffers {os : List Offer} (hd : DistinctIds os) (ns : Nets) : DistinctIds (spendOffers os ns) :=
  (inOrder_perm _).symm.pairwise (spendOffers_distinct hd ns) fun h => h.symm

/-- The spend offers taken stand in rank order. -/
theorem spendOffers_sorted {os : List Offer} (hd : DistinctIds os) (ns : Nets) :
    (spendOffers os ns).Pairwise RanksBefore :=
  inOrder_sorted (spendOffers_distinct hd ns)

/-- A taken spend offer is listed with what it gives in its turn. -/
theorem appliedEntry_taken {offers : List Offer} {x : Schedule} {q : Snapshot}
    (hs : offers.Pairwise fun o p => o.id < p.id) {n : Nat} {o : Offer} {given : Nat} (hk : o.kind = .spendOff)
    (hn : (spendOffers (offers.filter q.applicable) (netsOf q (resolve offers x q)))[n]? = some o)
    (hg : given = min o.value (((resolve offers x q).lines.map (·.net)).sum
      - (((spendOffers (offers.filter q.applicable) (netsOf q (resolve offers x q))).take n).map (·.value)).sum)) :
    appliedEntry (figures (offers.filter q.applicable) x q) o =
      if 0 < given then some { offer := o.id, lines := 0, saving := given } else none := by
  have hd := distinctIds_spendOffers (distinctIds_applicable (q := q) hs) (netsOf q (resolve offers x q))
  rw [appliedEntry_spend _ hk, figures_spendUses, applySpends_find _ _ hd n o hn, ← hg]
  rcases Nat.eq_zero_or_pos given with h | h
  · rw [if_pos h, if_neg (by omega)]
    rfl
  · rw [if_neg (by omega), if_pos h]
    rfl

/-- A listed spend offer is one that was taken. -/
theorem taken_of_applied {offers : List Offer} {x : Schedule} {q : Snapshot}
    (hs : offers.Pairwise fun o p => o.id < p.id) {e : Applied} (he : e ∈ (resolve offers x q).applied) {o : Offer}
    (ho : o ∈ offers.filter q.applicable) (hid : o.id = e.offer) (hk : o.kind = .spendOff) :
    o ∈ spendOffers (offers.filter q.applicable) (netsOf q (resolve offers x q)) := by
  have hd := distinctIds_applicable (q := q) hs
  have hentry := appliedEntry_of_mem hd ho (entry_of_applied he) hid.symm
  rw [appliedEntry_spend _ hk, figures_spendUses] at hentry
  obtain ⟨u, hu, -⟩ := Option.map_eq_some_iff.1 hentry
  obtain ⟨p, hp, hup⟩ := offer_of_applySpends (List.mem_of_find?_eq_some hu)
  have huo : u.offer = o.id := by simpa using List.find?_some hu
  have hpos : p ∈ offers.filter q.applicable := ((spendOffers_mem hd _ p).1 hp).1.1
  rwa [hd.eq_of_id ho hpos (huo.symm.trans hup)]

/-! ### Coupons (R75, R76) -/

theorem amountOn_storeValue {k : SnapCoupon} {value least : Nat} (h : k.kind = .storeValue value least)
    (payable : Nat) :
    k.amountOn payable = if k.active = true ∧ least ≤ payable then min value payable else 0 := by
  simp [SnapCoupon.amountOn, h]

theorem amountOn_offerKey {k : SnapCoupon} {id : Nat} (h : k.kind = .offerKey id) (payable : Nat) :
    k.amountOn payable = 0 := by
  simp only [SnapCoupon.amountOn, h]

/-- A coupon applies to the payable that spend offers and the coupons before it leave (R75). -/
theorem amount_in_turn {offers : List Offer} {x : Schedule} {q : Snapshot} {n : Nat} {k : SnapCoupon} {amount : Nat}
    (hk : q.coupons[n]? = some k) (ha : (figures (offers.filter q.applicable) x q).amounts[n]? = some amount) :
    amount = k.amountOn (((resolve offers x q).lines.map (·.net)).sum - (resolve offers x q).basketSaving
      - ((figures (offers.filter q.applicable) x q).amounts.take n).sum) := by
  have hturn := (couponAmounts_at (((resolve offers x q).lines.map (·.net)).sum
    - (resolve offers x q).basketSaving) q.coupons).2 n k hk
  rw [← figures_amounts] at hturn
  exact Option.some.inj (ha.symm.trans hturn)

/-- Settles O57: the spend offers of a quote, and the amounts of its coupons one after the other. -/
theorem spendOffersAndStoreValuesComeOffInOrder : Obligations.SpendOffersAndStoreValuesComeOffInOrder := by
  refine ⟨?spends, ?coupons⟩
  case spends =>
    rintro offers os x q v total hs rfl rfl rfl
    have hd := distinctIds_applicable (q := q) hs
    have hmem := spendOffers_mem hd (netsOf q (resolve offers x q))
    refine ⟨spendOffers (offers.filter q.applicable) (netsOf q (resolve offers x q)), spendOffers_sorted hd _, hmem, ?_,
      fun n o given hn hg => ?_, fun e he o ho hid hk => taken_of_applied hs he ho hid hk⟩
    · rw [resolve_basketSaving, figures_spendUses, applySpends_sum]
    · obtain ⟨ho, hk, -⟩ := ((hmem o).1 (List.mem_of_getElem? hn)).1
      exact applied_of_appliedEntry hs ho (appliedEntry_taken hs hk hn hg)
  case coupons =>
    rintro offers x q v rfl
    refine ⟨(figures (offers.filter q.applicable) x q).amounts, length_amounts, resolve_couponValue .., ?_⟩
    rintro n k amount payable hk ha rfl
    have hamount := amount_in_turn hk ha
    refine ⟨fun value least hkind => ⟨hamount.trans (amountOn_storeValue hkind _), ?_⟩,
      fun id hkind => ⟨hamount.trans (amountOn_offerKey hkind _), fun hdormant => ?_⟩⟩
    · rw [resolve_coupon hk ha, couponResult_storeValue hkind]
    · rw [resolve_coupon hk ha, couponResult_dormant hkind hdormant]

end Sys2Proof.Machine


/-! The points a quote earns (R78, R79): the bonus of each line by the greatest boost on its department, and the entry of
each boost in the applied-offer list (R81). -/

namespace Sys2Proof.Machine

/-! ### Points earned (R78, R79, R81) -/

/-- The greatest value among the boosts on a department, 0 without one (R79). -/
def greatestBoost (os : List Offer) (dept : Nat) : Nat :=
  ((os.filter fun o => o.kind = .pointsBoost ∧ holdsDept o dept = true).map (·.value)).foldl max 0

/-- The bonus of a line with its net (R79). -/
def bonusOf (os : List Offer) (x : Schedule) (rate : Nat) (y : SnapLine × Nat) : Nat :=
  if x.excluded.getLsbD y.1.dept = true ∨ y.1.noOffers = true then 0
  else y.2 * rate * (greatestBoost os y.1.dept - 1) / 100

/-- The boost used on a line with a bonus. -/
def usedBoost (os : List Offer) (x : Schedule) (rate : Nat) (y : SnapLine × Nat) : Option Offer :=
  if bonusOf os x rate y = 0 then none else boostOf os y.1

theorem boosts_mem (os : List Offer) (l : SnapLine) (o : Offer) :
    o ∈ os.filter (fun o => o.kind == .pointsBoost && o.target.hasDept l.dept) ↔ BoostsDept os l.dept o := by
  rw [← boosts_filter, List.mem_filter, BoostsDept, decide_eq_true_iff]

/-- The boost of a line is the best one on its department, and its value the greatest. -/
theorem boostOf_best {os : List Offer} (hd : DistinctIds os) {l : SnapLine} {o : Offer} (h : boostOf os l = some o) :
    BestOf (BoostsDept os l.dept) (·.value) o ∧ greatestBoost os l.dept = o.value := by
  have hbest := pickBest_best (hd.filter _) h
  refine ⟨hbest.congr (boosts_mem os l) fun _ _ => rfl, ?_⟩
  rw [greatestBoost, boosts_filter]
  exact best_value hbest

theorem greatestBoost_none {os : List Offer} {l : SnapLine} (h : boostOf os l = none) :
    greatestBoost os l.dept = 0 := by
  rw [greatestBoost, boosts_filter, pickBest_none.1 h]
  rfl

/-- The model's bonus of a line is the boost used and the bonus it gives. -/
theorem lineBonus_eq {os : List Offer} (hd : DistinctIds os) (x : Schedule) (rate : Nat) (y : SnapLine × Nat) :
    lineBonus os x rate y = (usedBoost os x rate y).map fun o => (o.id, bonusOf os x rate y) := by
  unfold lineBonus usedBoost bonusOf Schedule.counts
  by_cases hc : x.excluded.getLsbD y.1.dept = true ∨ y.1.noOffers = true
  · have hcount : (!x.excluded.getLsbD y.1.dept && !y.1.noOffers) = false := by
      rcases hc with h | h <;> simp [h]
    simp [hc, hcount]
  · have hcount : (!x.excluded.getLsbD y.1.dept && !y.1.noOffers) = true := by simpa using hc
    rw [if_pos hcount, if_neg hc]
    cases hb : boostOf os y.1 with
    | none => simp
    | some o =>
      rw [(boostOf_best hd hb).2]
      dsimp only
      split <;> rfl

/-- A line without a bonus uses no boost, and one with a bonus the best on its department. -/
theorem usedBoost_best {os : List Offer} (hd : DistinctIds os) {x : Schedule} {rate : Nat} {y : SnapLine × Nat}
    (h : 0 < bonusOf os x rate y) :
    ∃ o, usedBoost os x rate y = some o ∧ BestOf (BoostsDept os y.1.dept) (·.value) o := by
  have hne : bonusOf os x rate y ≠ 0 := Nat.ne_of_gt h
  rw [usedBoost, if_neg hne]
  cases hb : boostOf os y.1 with
  | none => exact absurd (by simp [bonusOf, greatestBoost_none hb]) hne
  | some o => exact ⟨o, rfl, (boostOf_best hd hb).1⟩

theorem usedBoost_mem {os : List Offer} (hd : DistinctIds os) {x : Schedule} {rate : Nat} {y : SnapLine × Nat}
    {o : Offer} (h : usedBoost os x rate y = some o) : o ∈ os := by
  unfold usedBoost at h
  split at h
  · cases h
  · exact (boostOf_best hd h).1.1.1

/-- The bonuses of a quote together are those of its lines. -/
theorem sum_lineBonus {os : List Offer} (hd : DistinctIds os) (x : Schedule) (rate : Nat) (ns : Nets) :
    ((ns.filterMap (lineBonus os x rate)).map (·.2)).sum = (ns.map (bonusOf os x rate)).sum := by
  induction ns with
  | nil => rfl
  | cons y ns ih =>
    rw [List.map_cons, List.sum_cons, ← ih]
    rcases Nat.eq_zero_or_pos (bonusOf os x rate y) with h | h
    · have hnone : lineBonus os x rate y = none := by rw [lineBonus_eq hd, usedBoost, if_pos h]; rfl
      rw [List.filterMap_cons_none hnone, h, Nat.zero_add]
    · obtain ⟨o, ho, -⟩ := usedBoost_best hd h
      have hsome : lineBonus os x rate y = some (o.id, bonusOf os x rate y) := by rw [lineBonus_eq hd, ho]; rfl
      rw [List.filterMap_cons_some hsome, List.map_cons, List.sum_cons]

/-- The bonuses a boost gives are as many as the lines it is used on. -/
theorem count_lineBonus {os : List Offer} (hd : DistinctIds os) (x : Schedule) (rate : Nat) {o : Offer} (ho : o ∈ os)
    (ns : Nets) :
    ((ns.filterMap (lineBonus os x rate)).filter (·.1 == o.id)).length =
      (ns.map (usedBoost os x rate)).count (some o) := by
  induction ns with
  | nil => rfl
  | cons y ns ih =>
    rw [List.map_cons, List.count_cons, ← ih]
    cases hu : usedBoost os x rate y with
    | none =>
      have hnone : lineBonus os x rate y = none := by rw [lineBonus_eq hd, hu]; rfl
      rw [List.filterMap_cons_none hnone]
      rfl
    | some p =>
      have hsome : lineBonus os x rate y = some (p.id, bonusOf os x rate y) := by rw [lineBonus_eq hd, hu]; rfl
      have hp := usedBoost_mem hd hu
      rw [List.filterMap_cons_some hsome]
      by_cases e : p = o
      · simp [e]
      · have hid : p.id ≠ o.id := fun h => e (hd.eq_of_id hp ho h)
        simp [e, hid]

theorem appliedEntry_boost (f : Figures) {o : Offer} (h : o.kind = .pointsBoost) :
    appliedEntry f o =
      if (f.bonuses.filter (·.1 == o.id)).length ≠ 0 then
        some { offer := o.id, lines := (f.bonuses.filter (·.1 == o.id)).length, saving := 0 }
      else none := by
  simp only [appliedEntry, h, ne_eq, ite_not]

theorem figures_bonuses (offers : List Offer) (x : Schedule) (q : Snapshot) :
    (figures (offers.filter q.applicable) x q).bonuses =
      (netsOf q (resolve offers x q)).filterMap (lineBonus (offers.filter q.applicable) x (q.rate x)) := by
  rw [netsOf_resolve]
  rfl

/-- The points earned, by the quote's own figures (R78). -/
theorem resolve_pointsEarned (offers : List Offer) (x : Schedule) (q : Snapshot) :
    (resolve offers x q).pointsEarned =
      min ((netSum x.counts (netsOf q (resolve offers x q)) - (resolve offers x q).basketSaving
          - (resolve offers x q).couponValue - (resolve offers x q).redemption) * q.rate x / 100
        + (((netsOf q (resolve offers x q)).filterMap
            (lineBonus (offers.filter q.applicable) x (q.rate x))).map (·.2)).sum) maxPoints := by
  rw [netsOf_resolve]
  rfl

/-- The base counts the nets outside the excluded departments (R78). -/
theorem netSum_counts (x : Schedule) (ns : Nets) :
    netSum x.counts ns = ((ns.filter fun y => x.excluded.getLsbD y.1.dept = false).map (·.2)).sum := by
  unfold netSum
  congr 2
  exact List.filter_congr fun y _ => by simp [Schedule.counts]

/-- Without an account there is no bonus (R78). -/
theorem bonusOf_rate_zero (os : List Offer) (x : Schedule) : bonusOf os x 0 = fun _ => 0 := by
  funext y
  simp [bonusOf]

/-- Settles O58: base and bonuses are the model's, and each boost's entry counts the lines it is used on. -/
theorem pointsAreEarnedAtTheTiersRate : Obligations.PointsAreEarnedAtTheTiersRate := by
  intro offers os x q v rate base bonus hs hos hv hrate hbase hbonus
  obtain rfl : rate = q.rate x := by rw [hrate, Snapshot.rate]; cases q.account <;> rfl
  obtain rfl : bonus = bonusOf os x (q.rate x) := hbonus
  subst hos hv
  have hd := distinctIds_applicable (q := q) hs
  have hearned : (resolve offers x q).pointsEarned = min (base * q.rate x / 100
      + ((netsOf q (resolve offers x q)).map (bonusOf (offers.filter q.applicable) x (q.rate x))).sum) 99999999 := by
    rw [resolve_pointsEarned, sum_lineBonus hd, netSum_counts, Nat.sub_sub, Nat.sub_sub, ← Nat.add_assoc, ← hbase]
    rfl
  refine ⟨fun hnone => ?_, hearned,
    (netsOf q (resolve offers x q)).map (usedBoost (offers.filter q.applicable) x (q.rate x)), List.length_map _,
    fun n y u hy hu => ?_, fun o ho hk => ?_⟩
  · have hzero : q.rate x = 0 := by rw [Snapshot.rate, hnone]
    rw [hearned, hzero, bonusOf_rate_zero, List.map_const', List.sum_replicate_nat, Nat.mul_zero, Nat.mul_zero]
    rfl
  · rw [List.getElem?_map, hy] at hu
    obtain rfl := Option.some.inj hu
    exact ⟨fun hz => if_pos hz, usedBoost_best hd⟩
  · rw [← count_lineBonus hd x (q.rate x) ho, ← figures_bonuses]
    exact applied_of_appliedEntry hs ho (appliedEntry_boost _ hk)

end Sys2Proof.Machine

/-! The cut rule on a list of reservations (R127): what a cut of so many points leaves, which contexts it reaches, and
how many reservations it removes. -/

namespace Sys2Proof.Machine

/-! ### A cut from the youngest on -/

/-- The sum of the reservations falls by the points cut. -/
theorem cutYoungest_sum (ex : Nat) (rs : List Reservation) :
    ((cutYoungest ex rs).1.map (·.points)).sum = (rs.map (·.points)).sum - ex := by
  fun_induction cutYoungest ex rs with
  | case1 rs => rfl
  | case2 ex => simp
  | case3 ex d rs hd rest ih => rw [ih, List.map_cons, List.sum_cons]; omega
  | case4 ex d rs hd => simp only [List.map_cons, List.sum_cons]; omega

/-- The reservations left and those removed are all there were. -/
theorem cutYoungest_length (ex : Nat) (rs : List Reservation) :
    (cutYoungest ex rs).1.length + (cutYoungest ex rs).2.2 = rs.length := by
  fun_induction cutYoungest ex rs with
  | case1 rs => rfl
  | case2 ex => rfl
  | case3 ex d rs hd rest ih => rw [List.length_cons, ← ih]; rfl
  | case4 ex d rs hd => rfl

/-- The contexts cut are those of the youngest reservations. -/
theorem cutYoungest_contexts (ex : Nat) (rs : List Reservation) : (cutYoungest ex rs).2.1 <+: rs.map (·.ctx) := by
  fun_induction cutYoungest ex rs with
  | case1 rs => exact List.nil_prefix
  | case2 ex => exact List.nil_prefix
  | case3 ex d rs hd rest ih => exact List.cons_prefix_cons.2 ⟨rfl, ih⟩
  | case4 ex d rs hd => exact List.cons_prefix_cons.2 ⟨rfl, List.nil_prefix⟩

/-- The contexts with a reservation left are those of the oldest reservations. -/
theorem cutYoungest_left (ex : Nat) (rs : List Reservation) :
    (cutYoungest ex rs).1.map (·.ctx) <:+ rs.map (·.ctx) := by
  fun_induction cutYoungest ex rs with
  | case1 rs => exact List.suffix_refl _
  | case2 ex => exact List.suffix_refl _
  | case3 ex d rs hd rest ih => exact ih.trans (List.suffix_cons ..)
  | case4 ex d rs hd => exact List.suffix_refl _

/-- A cut that reaches no context leaves every reservation. -/
theorem cutYoungest_untouched {ex : Nat} {rs : List Reservation} (h : (cutYoungest ex rs).2.1 = []) :
    cutYoungest ex rs = (rs, [], 0) := by
  fun_induction cutYoungest ex rs with
  | case1 rs => rfl
  | case2 ex => rfl
  | case3 ex d rs hd rest ih => cases h
  | case4 ex d rs hd => cases h

theorem cutYoungest_zero (rs : List Reservation) : cutYoungest 0 rs = (rs, [], 0) := by
  cases rs <;> rfl

/-- Where a cut of no more than the sum ends: at a reservation `last`, with every younger one removed and every older
one left; `last` is removed as well or left with fewer points. -/
theorem cutYoungest_ends {ex : Nat} {rs : List Reservation} (hpos : 0 < ex) (hsum : ex ≤ (rs.map (·.points)).sum) :
    ∃ young last old, rs = young ++ last :: old ∧
      (cutYoungest ex rs).2.1 = (young ++ [last]).map (·.ctx) ∧
      ((cutYoungest ex rs).1 = old ∨
        ∃ n, 1 ≤ n ∧ n < last.points ∧ (cutYoungest ex rs).1 = { last with points := n } :: old) := by
  fun_induction cutYoungest ex rs with
  | case1 rs => exact absurd hpos (Nat.lt_irrefl 0)
  | case2 ex => exact absurd hsum (Nat.not_le_of_lt hpos)
  | case3 ex d rs hd rest ih =>
    rw [List.map_cons, List.sum_cons] at hsum
    rcases Nat.eq_or_lt_of_le hd with he | hlt
    · have hrest : rest = (rs, [], 0) := by
        rw [show rest = cutYoungest (ex + 1 - d.points) rs from rfl, ← he, Nat.sub_self, cutYoungest_zero]
      exact ⟨[], d, rs, rfl, by rw [hrest]; rfl, .inl (by rw [hrest])⟩
    · obtain ⟨young, last, old, hrs, hcut, hleft⟩ := ih (by omega) (by omega)
      exact ⟨d :: young, last, old, congrArg (d :: ·) hrs, congrArg (d.ctx :: ·) hcut, hleft⟩
  | case4 ex d rs hd => exact ⟨[], d, rs, rfl, rfl, .inr ⟨d.points - (ex + 1), by omega, by omega, rfl⟩⟩

/-! ### The cut rule on an entry's reservations (R127) -/

theorem cutHolds_sum (held : List Reservation) (balance : Nat) :
    ((cutHolds held balance).map (·.points)).sum = min balance (held.map (·.points)).sum := by
  rw [cutHolds, List.map_reverse, List.sum_reverse, cutYoungest_sum, List.map_reverse, List.sum_reverse]
  omega

/-- A balance that covers the reservations cuts none. -/
theorem cut_covered {held : List Reservation} {balance : Nat} (h : (held.map (·.points)).sum ≤ balance) :
    cutHolds held balance = held ∧ cutContexts held balance = [] := by
  rw [cutHolds, cutContexts, Nat.sub_eq_zero_of_le h, cutYoungest_zero]
  exact ⟨List.reverse_reverse held, rfl⟩

/-- A balance below the sum cuts from the youngest on to a reservation `last`, which the older ones precede. -/
theorem cut_ends {held : List Reservation} {balance : Nat} (h : balance < (held.map (·.points)).sum) :
    ∃ old last young, held = old ++ last :: young ∧
      (cutContexts held balance).reverse = (last :: young).map (·.ctx) ∧
      (cutHolds held balance = old ∨
        ∃ n, 1 ≤ n ∧ n < last.points ∧ cutHolds held balance = old ++ [{ last with points := n }]) := by
  obtain ⟨young, last, old, hrs, hcut, hleft⟩ :=
    cutYoungest_ends (ex := (held.map (·.points)).sum - balance) (rs := held.reverse) (by omega)
      (by rw [List.map_reverse, List.sum_reverse]; omega)
  refine ⟨old.reverse, last, young.reverse, ?_, ?_, ?_⟩
  · rw [← List.reverse_reverse held, hrs]; simp
  · rw [cutContexts, hcut]; simp
  · rw [cutHolds]
    exact hleft.imp (fun h => by rw [h]) fun ⟨n, hn, hlast, h⟩ => ⟨n, hn, hlast, by rw [h]; simp⟩

/-- Settles O29: the cut ends at one reservation, and the reservations before it are those that stay as they are. -/
theorem cutRuleTakesTheYoungestFirst : Obligations.CutRuleTakesTheYoungestFirst := by
  intro held balance
  refine ⟨cut_covered, fun hlt _ => ⟨by rw [cutHolds_sum]; omega, ?_⟩⟩
  obtain ⟨old, last, young, hheld, hcut, hleft⟩ := cut_ends hlt
  have hlast : held[old.length]? = some last := by rw [hheld]; simp
  have htake : held.take old.length = old := by rw [hheld, List.take_left]
  refine ⟨old.length, ?_, by rw [hheld]; simp, ?_, by rw [hcut, hheld]; simp, fun d hd => ?_⟩
  · rcases hleft with h | ⟨n, -, -, h⟩ <;> simp [h]
  · rcases hleft with h | ⟨n, -, -, h⟩ <;> simp [htake, h]
  · rcases hleft with h | ⟨n, hn, hless, h⟩
    · simp [h] at hd
    · obtain rfl : { last with points := n } = d := by simpa [h] using hd
      exact ⟨last, hlast, rfl, hn, hless⟩

end Sys2Proof.Machine

/-! DETACH_ACCOUNT, REDEEM and CANCEL_REDEEM (R117, R121 to R124): the entries of the account table after each of their
steps, and the requests that change their context and the account table and nothing else. -/

namespace Sys2Proof.Machine

/-! ### The entries of the account table (R116, R117) -/

theorem account_congr {s t : State} (h : t.accounts = s.accounts) (j : Nat) : t.account j = s.account j := by
  unfold State.account; rw [h]

theorem account_id {s : State} {j : Nat} {e : AccountEntry} (h : s.account j = some e) : e.id = j := by
  simpa using List.find?_some h

/-- A change of an entry that keeps its id is seen under that id only. -/
theorem changeAccount_account (id : Nat) {g : AccountEntry → AccountEntry} (hg : ∀ e, (g e).id = e.id) (s : State)
    (j : Nat) : (changeAccount id g s).account j = if j = id then (s.account j).map g else s.account j := by
  have hfind : (changeAccount id g s).account j =
      (s.account j).map fun e => if e.id == id then g e else e :=
    find?_map_id (fun e => by split <;> simp [hg]) s.accounts j
  rw [hfind]
  cases hj : s.account j with
  | none => simp
  | some e => by_cases h : j = id <;> simp [account_id hj, h]

theorem changeAccount_same {id : Nat} (g : AccountEntry → AccountEntry) (hg : ∀ e, (g e).id = e.id) {s : State}
    {e : AccountEntry} (h : s.account id = some e) : (changeAccount id g s).account id = some (g e) := by
  rw [changeAccount_account id hg, if_pos rfl, h, Option.map_some]

/-- An entry whose reference stays once a basket has given its reservation back. -/
theorem accountLeft_kept {dropped : Option Nat} {j : Nat} (h : dropped ≠ some j) (s : State) (c : CtxNo) (used : Nat) :
    accountLeft s c dropped used j = (s.account j).map (withoutHold c) := by
  unfold accountLeft
  cases s.account j with
  | none => rfl
  | some e => exact if_neg h

section
variable {s : State} {f : Frame} {l : LaneNo} {c : CtxNo}

/-- The reservation removed after a take: the timer the take restarted goes with it. -/
theorem removed_accounts (hc : (s.lane l).ctx = some c) :
    (removeReservation c (laneTaken f l s)).accounts = s.accounts.map (withoutHold c) := by
  rw [removeReservation_accounts, laneTaken_accounts hc, withoutHold_touched]

theorem removed_account (hc : (s.lane l).ctx = some c) (j : Nat) :
    (removeReservation c (laneTaken f l s)).account j = (s.account j).map (withoutHold c) := by
  unfold State.account
  rw [removed_accounts hc, find?_map_id (g := withoutHold c) fun _ => rfl]

/-- Reservation and reference given back after a take. -/
theorem dropped_account (hc : (s.lane l).ctx = some c) (h : AccountsOrdered s) {ref : AccountRef}
    (hr : (s.ctx c).account = some ref) (j : Nat) :
    (dropReference ref.id (removeReservation c (laneTaken f l s))).account j =
      accountLeft s c (some ref.id) 0 j := by
  have hctx : (removeReservation c (laneTaken f l s)).ctx c = s.ctx c := by
    rw [ctx_congr (removeReservation_ctxs ..), laneTaken_ctx]
  have hleft := dropReferenceOf_account (removed_accounts hc) hctx h j
  simpa only [dropReferenceOf, hctx, hr, referredId, Option.map_some] using hleft

end

/-! ### A change of a context and the account table answered OK (R7) -/

theorem OnBasket.laneCtx {s : State} {l : LaneNo} {c : CtxNo} {a : Attachment} (h : OnBasket s l c a) :
    (s.lane l).ctx = some c := by
  obtain ⟨-, hc, -⟩ := h
  exact hc

/-- A body that writes its context, its lane and the account table. -/
theorem bodyWrote_accounts (s : State) (k : Byte) (r : Req) (l : LaneNo) (c : CtxNo) (x : Context) (y : Lane)
    (es : List AccountEntry) : BodyWrote s s
      { ((laneTaken (r.frame k) l s).setCtx c x).setLane l y with accounts := es } k r l c x y :=
  ⟨by simp, by simp [State.setLane], by simp, by simp, by simp, by simp, by apply State.ext <;> simp, rfl, rfl, rfl⟩

/-- A request on a basket whose body changes the account table and its context and answers OK: reply, basket, accounts
and frame. -/
theorem changed_accounts_on {s v : State} {l : LaneNo} {c : CtxNo} {a : Attachment} (hb : OnBasket s l c a) {k : Byte}
    {r : Req} (hv : v = { laneTaken (r.frame k) l s with accounts := v.accounts }) {x : Context}
    (hx : x.place = .attached a) (fields : List Byte) :
    ∃ t, Host.Outcome.next (φ := Fault) (ρ := Refusal) (settleClaims (answerLane k r l
        (bumpRevision c (v.setCtx c x), .reply .ok fields))) = .next t ∧
      BasketChanged s t k r l c (revised a x) fields ∧ t.accounts = v.accounts ∧ LaneFrame s t := by
  obtain ⟨hst, hc, -, hal⟩ := hb
  have hlane : v.lane l = watched s l := by
    rw [lane_congr (s := laneTaken (r.frame k) l s) (by rw [hv]), laneTaken_lane_on hst, if_pos rfl]
  have hbody : bumpRevision c (v.setCtx c x) =
      { ((laneTaken (r.frame k) l s).setCtx c (revised a x)).setLane l
          { watched s l with state := .opened, subtotalOwed := false } with accounts := v.accounts } := by
    rw [bumpRevision_setCtx hx, hal, hlane, overtaken_watched hst, hv]
    rfl
  have hw := bodyWrote_accounts s k r l c (revised a x)
    { watched s l with state := .opened, subtotalOwed := false } v.accounts
  obtain ⟨t, ht, ha, hctx, hl, hco, hlo, hacc, hf⟩ := hw.answered (hw.laneRevision hc) .ok fields
  exact ⟨t, by rw [hbody]; exact ht, ⟨ha, hctx, hco, hl, hlo⟩, hacc, hf⟩

/-! ### DETACH_ACCOUNT and CANCEL_REDEEM (R121, R124) -/

theorem detachBody_none {c : CtxNo} {u : State} (h : (u.ctx c).account = none) :
    detachBody c u = (u, .reply .noAccount []) := by
  simp only [detachBody, h]

theorem detachBody_some {c : CtxNo} {u : State} {ref : AccountRef} (h : (u.ctx c).account = some ref) :
    detachBody c u =
      (bumpRevision c ((dropReference ref.id (removeReservation c u)).setCtx c { u.ctx c with account := none }),
        .reply .ok (enc 5 ref.id ++ enc 4 (u.reserved c)
          ++ encFlag ((dropReference ref.id (removeReservation c u)).account ref.id).isNone)) := by
  have hctx : (dropReference ref.id (removeReservation c u)).ctx c = u.ctx c := rfl
  simp only [detachBody, h, hctx, stepFlag]
  rw [account_congr (bumpRevision_accounts ..), account_congr (setCtx_accounts ..)]

theorem cancelRedeemBody_none {c : CtxNo} {u : State} (h : (u.ctx c).account = none) :
    cancelRedeemBody c u = (u, .reply .noAccount []) := by
  simp only [cancelRedeemBody, h]

theorem cancelRedeemBody_some {c : CtxNo} {u : State} {ref : AccountRef} (h : (u.ctx c).account = some ref) :
    cancelRedeemBody c u =
      (bumpRevision c ((removeReservation c u).setCtx c (u.ctx c)), .reply .ok (enc 4 (u.reserved c))) := by
  have hself : (removeReservation c u).setCtx c (u.ctx c) = removeReservation c u :=
    setCtx_self (removeReservation c u) c
  simp only [cancelRedeemBody, h, hself]

/-- Settles O26: with an account the body's writes in the account table, and without one the refusal both share. -/
theorem detachAndCancelReleaseTheReservation : Obligations.DetachAndCancelReleaseTheReservation := by
  intro s r l c a hb hacc hp
  have hlen : r.payload.length = 0 := by rw [hp]; rfl
  have hc := hb.laneCtx
  have hctx : ∀ k, (laneTaken (r.frame k) l s).ctx c = s.ctx c := fun k => laneTaken_ctx ..
  have hdetach := fun ht : TakesLane s 0x0A r l => basketRequest_takes ht hb hlen (fun _ => detachBody)
  have hcancel := fun ht : TakesLane s 0x0C r l => basketRequest_takes ht hb hlen (fun _ => cancelRedeemBody)
  refine ⟨fun ref ht hr => ?_, fun ref ht hr => ?_, fun ht hn => ?_, fun ht hn => ?_⟩
  · have he := hdetach ht
    rw [detachBody_some ((hctx _).symm ▸ hr), dropped_account hc hacc hr, laneTaken_reserved_points hc, hctx] at he
    obtain ⟨t, ht', hbasket, hta, hf⟩ := changed_accounts_on hb (k := 0x0A) (r := r)
      (v := dropReference ref.id (removeReservation c (laneTaken (r.frame 0x0A) l s))) rfl
      (x := { s.ctx c with account := none }) hb.place _
    exact ⟨t, he.trans ht', hbasket, fun j => by rw [account_congr hta, dropped_account hc hacc hr], hf⟩
  · have he := hcancel ht
    rw [cancelRedeemBody_some ((hctx _).symm ▸ hr), laneTaken_reserved_points hc, hctx] at he
    obtain ⟨t, ht', hbasket, hta, hf⟩ := changed_accounts_on hb (k := 0x0C) (r := r)
      (v := removeReservation c (laneTaken (r.frame 0x0C) l s)) rfl (x := s.ctx c) hb.place _
    refine ⟨t, he.trans ht', hbasket, fun j => ?_, hf⟩
    rw [account_congr hta, removed_account hc, accountLeft_kept (by simp)]
  · have he := hdetach ht
    rw [detachBody_none ((hctx _).symm ▸ hn)] at he
    obtain ⟨t, ht', hrest⟩ := answered_on hb 0x0A r .noAccount []
    exact ⟨t, he.trans ht', hrest⟩
  · have he := hcancel ht
    rw [cancelRedeemBody_none ((hctx _).symm ▸ hn)] at he
    obtain ⟨t, ht', hrest⟩ := answered_on hb 0x0C r .noAccount []
    exact ⟨t, he.trans ht', hrest⟩

end Sys2Proof.Machine

/-! REDEEM (R117, R122, R123): what is available to a context, its new reservation and the refusals. -/

namespace Sys2Proof.Machine

/-! ### What is available to a context (R117) -/

theorem withoutHold_ctx {c : CtxNo} {e : AccountEntry} {d : Reservation} (h : d ∈ (withoutHold c e).reservations) :
    d.ctx ≠ c := by
  simpa using (List.mem_filter.1 h).2

/-- What an entry has for a context does not depend on the context's own reservation. -/
theorem availableTo_eq (e : AccountEntry) (c : CtxNo) : e.availableTo c =
    (withoutHold c e).balance - ((withoutHold c e).reservations.map (·.points)).sum := by
  have hfilter : (e.reservations.filter fun d => d.ctx != c) = (withoutHold c e).reservations :=
    List.filter_congr fun d _ => by by_cases h : d.ctx = c <;> simp [h]
  rw [AccountEntry.availableTo, hfilter]
  rfl

theorem laneTaken_available {s : State} {f : Frame} {l : LaneNo} {c : CtxNo} (hc : (s.lane l).ctx = some c) {id : Nat}
    {e : AccountEntry} (h : s.account id = some e) : (laneTaken f l s).available c id =
      e.balance - ((withoutHold c e).reservations.map (·.points)).sum := by
  have hmap : ((laneTaken f l s).account id).map (withoutHold c) = some (withoutHold c e) := by
    unfold State.account at h ⊢
    rw [← find?_map_id (g := withoutHold c) fun _ => rfl, ← removeReservation_accounts, removed_accounts hc,
      find?_map_id (g := withoutHold c) fun _ => rfl, h]
    rfl
  obtain ⟨e', he', hsame⟩ := Option.map_eq_some_iff.1 hmap
  simp only [State.available, he']
  rw [availableTo_eq, hsame]
  rfl

theorem minimumRedemption_attached {u : State} {c : CtxNo} {a : Attachment} {x : Schedule}
    (h : (u.ctx c).place = .attached a) (hx : (u.bank a.bank).schedule = some x) :
    u.minimumRedemption c = x.minimumRedemption := by
  simp only [State.minimumRedemption, Context.attachment_attached h, hx]

/-! ### The new reservation (R123) -/

/-- An entry with a reservation of a context as its youngest, in place of the one it had. -/
def reserving (s : State) (c : CtxNo) (points : Nat) (e : AccountEntry) : AccountEntry :=
  { e with reservations := (withoutHold c e).reservations ++
      [{ ctx := c, points := points, expires := s.now + s.config.reservationLifetime * 1000 }] }

theorem reserved_account {s : State} {f : Frame} {l : LaneNo} {c : CtxNo} (hc : (s.lane l).ctx = some c)
    (id points j : Nat) : (addReservation c id points (removeReservation c (laneTaken f l s))).account j =
      if j = id then (s.account j).map (reserving s c points) else (s.account j).map (withoutHold c) := by
  rw [addReservation, changeAccount_account, removed_account hc, Option.map_map]
  · simp only [State.after, removeReservation_now, removeReservation_config, laneTaken_now, laneTaken_config]
    rfl
  · exact fun _ => rfl

/-- The youngest reservation stands after all that are left. -/
theorem reservationPosition_youngest {s v : State} {c : CtxNo} {id points : Nat} {e : AccountEntry}
    (h : v.account id = some (reserving s c points e)) :
    reservationPosition v c id = (withoutHold c e).reservations.length + 1 := by
  have hnone : (withoutHold c e).reservations.findIdx (·.ctx == c) = (withoutHold c e).reservations.length :=
    List.findIdx_eq_length.2 fun d hd => by simpa using withoutHold_ctx hd
  simp only [reservationPosition, h, reserving]
  rw [List.findIdx_append, hnone]
  simp

/-! ### REDEEM (R122, R123) -/

theorem redeemBody_bad {p : List Byte} {c : CtxNo} {u : State} (h : field p 0 4 = 0 ∨ maxPoints < field p 0 4) :
    redeemBody p c u = (u, badField 0 0) :=
  if_neg (by omega)

section
variable {p : List Byte} {c : CtxNo} {u : State} (hp : 1 ≤ field p 0 4 ∧ field p 0 4 ≤ maxPoints)
include hp

theorem redeemBody_none (h : (u.ctx c).account = none) : redeemBody p c u = (u, .reply .noAccount []) := by
  simp only [redeemBody, if_pos hp, h]

variable {ref : AccountRef} (h : (u.ctx c).account = some ref)
include h

theorem redeemBody_belowMinimum (hm : field p 0 4 < u.minimumRedemption c) :
    redeemBody p c u = (u, .reply .belowMinimum (enc 4 (u.minimumRedemption c))) := by
  simp only [redeemBody, if_pos hp, h, if_pos hm]

theorem redeemBody_insufficient (hm : u.minimumRedemption c ≤ field p 0 4) (ha : u.available c ref.id < field p 0 4) :
    redeemBody p c u = (u, .reply .insufficient (enc 4 (u.available c ref.id))) := by
  simp only [redeemBody, if_pos hp, h, if_neg (Nat.not_lt_of_le hm), if_pos ha]

theorem redeemBody_ok (hm : u.minimumRedemption c ≤ field p 0 4) (ha : field p 0 4 ≤ u.available c ref.id) {v : State}
    (hv : v = addReservation c ref.id (field p 0 4) (removeReservation c u)) :
    redeemBody p c u = (bumpRevision c (v.setCtx c (u.ctx c)),
      .reply .ok (enc 4 (field p 0 4) ++ enc 4 (u.available c ref.id - field p 0 4)
        ++ enc 1 (reservationPosition v c ref.id))) := by
  have hself : v.setCtx c (u.ctx c) = v := by subst hv; exact setCtx_self (addReservation c ref.id _ _) c
  have hpos : reservationPosition (bumpRevision c v) c ref.id = reservationPosition v c ref.id := by
    simp only [reservationPosition, account_congr (bumpRevision_accounts ..)]
  rw [hself, ← hpos, hv]
  simp only [redeemBody, if_pos hp, h, if_neg (Nat.not_lt_of_le hm), if_neg (Nat.not_lt_of_le ha)]

end

/-- Settles O27: the checks of the body in their order, and for points in range the reservation it adds. -/
theorem redeemReservesPoints : Obligations.RedeemReservesPoints := by
  intro s r l c a x points ht hb hlen hpoints hx
  have he := basketRequest_takes ht hb hlen (fun _ => redeemBody r.payload)
  have hc := hb.laneCtx
  have hctx : (laneTaken (r.frame 0x0B) l s).ctx c = s.ctx c := laneTaken_ctx ..
  have hmin : (laneTaken (r.frame 0x0B) l s).minimumRedemption c = x.minimumRedemption :=
    minimumRedemption_attached (hctx ▸ hb.place) (by rw [bank_congr (laneTaken_banks ..), hx])
  subst hpoints
  refine ⟨fun hbad => ?_, fun ref e h1 h2 hr hacc => ?_, fun h1 h2 hn => ?_⟩
  · rw [redeemBody_bad hbad] at he
    obtain ⟨t, ht', ha, -⟩ := answered_on hb 0x0B r .badField [0, 0]
    exact ⟨t, he.trans ht', ha⟩
  · have hp : 1 ≤ field r.payload 0 4 ∧ field r.payload 0 4 ≤ maxPoints := ⟨h1, h2⟩
    have hr' : ((laneTaken (r.frame 0x0B) l s).ctx c).account = some ref := hctx.symm ▸ hr
    have hav := laneTaken_available (f := r.frame 0x0B) hc hacc
    refine ⟨fun hm hfits => ?_, fun hm => ?_, fun hm hlack => ?_⟩
    · have hnew := reserved_account (f := r.frame 0x0B) hc ref.id (field r.payload 0 4)
      have hself := hnew ref.id
      rw [if_pos rfl, hacc, Option.map_some] at hself
      rw [redeemBody_ok hp hr' (by rwa [hmin]) (by rw [hav]; omega) rfl, reservationPosition_youngest hself, hav,
        hctx] at he
      obtain ⟨t, ht', hbasket, hta, hf⟩ := changed_accounts_on hb (k := 0x0B) (r := r)
        (v := addReservation c ref.id (field r.payload 0 4) (removeReservation c (laneTaken (r.frame 0x0B) l s))) rfl
        (x := s.ctx c) hb.place _
      refine ⟨t, he.trans ht', ⟨hbasket, ?_⟩, fun j hj => ?_, hf⟩
      · rw [account_congr hta, hself]
        rfl
      · rw [account_congr hta, hnew, if_neg hj, accountLeft_kept (by simp)]
    · rw [redeemBody_belowMinimum hp hr' (by rwa [hmin]), hmin] at he
      obtain ⟨t, ht', ha, hctxs, -, -, hta, hf⟩ := answered_on hb 0x0B r .belowMinimum (enc 4 x.minimumRedemption)
      exact ⟨t, he.trans ht', ha, hctxs, hta, hf⟩
    · rw [redeemBody_insufficient hp hr' (by rwa [hmin]) (by rw [hav]; omega), hav] at he
      obtain ⟨t, ht', ha, hctxs, -, -, hta, hf⟩ := answered_on hb 0x0B r .insufficient
        (enc 4 (e.balance - ((withoutHold c e).reservations.map (·.points)).sum))
      exact ⟨t, he.trans ht', ha, hctxs, hta, hf⟩
  · rw [redeemBody_none ⟨h1, h2⟩ (hctx.symm ▸ hn)] at he
    obtain ⟨t, ht', ha, hctxs, -, -, hta, hf⟩ := answered_on hb 0x0B r .noAccount []
    exact ⟨t, he.trans ht', ha, hctxs, hta, hf⟩

end Sys2Proof.Machine

/-! ACCOUNT_BALANCE (R127, R128) and ATTACH_ACCOUNT (R116, R119, R120): the cut rule on the state, and the two requests
that apply it. -/

namespace Sys2Proof.Machine

/-! ### The contexts and reservations of a cut (R127) -/

theorem cutContexts_subset {held : List Reservation} {balance : Nat} {c : CtxNo}
    (h : c ∈ cutContexts held balance) : c ∈ held.map (·.ctx) := by
  have hm := (cutYoungest_contexts _ held.reverse).subset h
  rwa [List.map_reverse, List.mem_reverse] at hm

/-- Where no context has two reservations, none is cut twice. -/
theorem cutContexts_nodup {held : List Reservation} (h : (held.map (·.ctx)).Nodup) (balance : Nat) :
    (cutContexts held balance).Nodup := by
  refine (cutYoungest_contexts _ held.reverse).sublist.nodup ?_
  rw [List.map_reverse]
  exact (List.reverse_perm _).symm.nodup h

theorem cutHolds_subset {held : List Reservation} {balance : Nat} {d : Reservation} (h : d ∈ cutHolds held balance) :
    d.ctx ∈ held.map (·.ctx) := by
  have hm := (cutYoungest_left _ held.reverse).subset (List.mem_map_of_mem (List.mem_reverse.1 h))
  rwa [List.map_reverse, List.mem_reverse] at hm

theorem cutHolds_untouched {held : List Reservation} {balance : Nat} (h : cutContexts held balance = []) :
    cutHolds held balance = held := by
  rw [cutHolds, cutYoungest_untouched h, List.reverse_reverse]

/-- The number of reservations removed. -/
theorem cut_removed (held : List Reservation) (balance : Nat) :
    (cutYoungest ((held.map (·.points)).sum - balance) held.reverse).2.2 =
      held.length - (cutHolds held balance).length := by
  have h := cutYoungest_length ((held.map (·.points)).sum - balance) held.reverse
  rw [List.length_reverse] at h
  rw [cutHolds, List.length_reverse]
  omega

/-! ### A fold of revision increases (R7, R11, R15) -/

theorem Lane.overtaken_overtaken (x : Lane) : x.overtaken.overtaken = x.overtaken := by
  unfold Lane.overtaken
  split <;> simp [*]

theorem Context.bumped_attachment (x : Context) : x.bumped.attachment = x.attachment := rfl

theorem lanesOf_congr {s t : State} (h : ∀ d, (t.ctx d).attachment = (s.ctx d).attachment) (cs : List CtxNo) :
    lanesOf t cs = lanesOf s cs := by
  simp only [lanesOf, h]

theorem bumpRevision_attachment (c d : CtxNo) (s : State) :
    ((bumpRevision c s).ctx d).attachment = (s.ctx d).attachment := by
  rw [bumpRevision_ctx]
  split
  · next h => rw [h, Context.bumped_attachment]
  · rfl

theorem bumpAll_attachment (cs : List CtxNo) (d : CtxNo) (s : State) :
    ((cs.foldl (fun s c => bumpRevision c s) s).ctx d).attachment = (s.ctx d).attachment := by
  induction cs generalizing s with
  | nil => rfl
  | cons c cs ih => rw [List.foldl_cons, ih, bumpRevision_attachment]

theorem bumpRevision_lane (c : CtxNo) (s : State) (m : LaneNo) : (bumpRevision c s).lane m =
    if m ∈ lanesOf s [c] then (s.lane m).overtaken else s.lane m := by
  unfold bumpRevision
  split
  · next a ha =>
    have hl : lanesOf s [c] = [a.lane] := by simp [lanesOf, Context.attachment_attached ha]
    rw [lane_setLane, lane_congr (setCtx_lanes ..), lane_congr (setCtx_lanes ..)]
    simp only [hl, List.mem_singleton]
    split
    · next h => rw [h]
    · rfl
  · next h =>
    have hl : lanesOf s [c] = [] := by
      unfold lanesOf Context.attachment
      cases hp : (s.ctx c).place with
      | attached a => exact absurd hp (h a)
      | _ => simp [hp]
    rw [hl, if_neg List.not_mem_nil]
    exact lane_congr (setCtx_lanes ..) m

/-- Contexts that move to a new revision once each. -/
theorem bumpAll_ctx {cs : List CtxNo} (h : cs.Nodup) (s : State) (d : CtxNo) :
    (cs.foldl (fun s c => bumpRevision c s) s).ctx d = if d ∈ cs then (s.ctx d).bumped else s.ctx d := by
  induction cs generalizing s with
  | nil => rfl
  | cons c cs ih =>
    rw [List.nodup_cons] at h
    rw [List.foldl_cons, ih h.2, bumpRevision_ctx]
    by_cases hd : d = c
    · subst hd; simp [h.1]
    · simp [hd]

/-- What the revision increases do to a lane: once or more often, the same. -/
theorem bumpAll_lane (cs : List CtxNo) (s : State) (m : LaneNo) :
    (cs.foldl (fun s c => bumpRevision c s) s).lane m =
      if m ∈ lanesOf s cs then (s.lane m).overtaken else s.lane m := by
  induction cs generalizing s with
  | nil => rfl
  | cons c cs ih =>
    have hcons : lanesOf s (c :: cs) = lanesOf s [c] ++ lanesOf s cs :=
      List.filterMap_append (l := [c]) (l' := cs)
    rw [List.foldl_cons, ih, bumpRevision_lane, lanesOf_congr fun d => bumpRevision_attachment c d s, hcons]
    by_cases h1 : m ∈ lanesOf s [c] <;> by_cases h2 : m ∈ lanesOf s cs <;>
      simp [h1, h2, Lane.overtaken_overtaken]

/-! ### The cut rule on the state (R127) -/

/-- An entry with other reservations. -/
def AccountEntry.withHolds (held : List Reservation) (e : AccountEntry) : AccountEntry :=
  { e with reservations := held }

/-- The state once the reservations of an entry are cut and the contexts cut have moved on, HOLD_CUT not yet raised. -/
def reduced (id : Nat) (e : AccountEntry) (s : State) : State :=
  (cutContexts e.reservations e.balance).foldl (fun s c => bumpRevision c s)
    (changeAccount id (AccountEntry.withHolds (cutHolds e.reservations e.balance)) s)

section
variable {s : State} {id : Nat} {e : AccountEntry} (h : s.account id = some e)
include h

theorem cutRule_untouched (hc : cutContexts e.reservations e.balance = []) : cutRule id s = (s, 0, 0) := by
  have hempty : (cutYoungest (e.sum - e.balance) e.reservations.reverse).2.1.isEmpty = true :=
    List.isEmpty_iff.2 hc
  simp only [cutRule, h]
  exact if_pos hempty

theorem cutRule_reduces (hc : cutContexts e.reservations e.balance ≠ []) : cutRule id s =
    (raise .holdCut (·.addLanes (laneSetOf (lanesOf (reduced id e s) (cutContexts e.reservations e.balance))))
        (reduced id e s),
      (cutContexts e.reservations e.balance).length,
      e.reservations.length - (cutHolds e.reservations e.balance).length) := by
  have hnonempty : ¬ (cutYoungest (e.sum - e.balance) e.reservations.reverse).2.1.isEmpty = true :=
    fun he => hc (List.isEmpty_iff.1 he)
  rw [← cut_removed]
  simp only [cutRule, h]
  exact if_neg hnonempty

theorem cutRule_counts : (cutRule id s).2 = ((cutContexts e.reservations e.balance).length,
    e.reservations.length - (cutHolds e.reservations e.balance).length) := by
  by_cases hc : cutContexts e.reservations e.balance = []
  · rw [cutRule_untouched h hc, hc, cutHolds_untouched hc, Nat.sub_self]; rfl
  · rw [cutRule_reduces h hc]

theorem cutRule_account (j : Nat) : (cutRule id s).1.account j =
    if j = id then some (e.withHolds (cutHolds e.reservations e.balance)) else s.account j := by
  by_cases hc : cutContexts e.reservations e.balance = []
  · rw [cutRule_untouched h hc, cutHolds_untouched hc]
    split
    · next hj => rw [hj, h]; rfl
    · rfl
  · rw [cutRule_reduces h hc, account_congr (raise_accounts ..), reduced, account_congr (bumpAll_accounts ..),
      changeAccount_account id (g := AccountEntry.withHolds _) fun _ => rfl]
    split
    · next hj => rw [hj, h]; rfl
    · rfl

theorem cutRule_lane (m : LaneNo) : (cutRule id s).1.lane m =
    if m ∈ lanesOf s (cutContexts e.reservations e.balance) then (s.lane m).overtaken else s.lane m := by
  by_cases hc : cutContexts e.reservations e.balance = []
  · rw [cutRule_untouched h hc, hc]
    rfl
  · rw [cutRule_reduces h hc, lane_congr (raise_lanes ..), reduced, bumpAll_lane]
    rfl

theorem cutRule_ctx (hnd : (e.reservations.map (·.ctx)).Nodup) (d : CtxNo) : (cutRule id s).1.ctx d =
    if d ∈ cutContexts e.reservations e.balance then (s.ctx d).bumped else s.ctx d := by
  by_cases hc : cutContexts e.reservations e.balance = []
  · rw [cutRule_untouched h hc, hc]
    rfl
  · rw [cutRule_reduces h hc, ctx_congr (raise_ctxs ..), reduced, bumpAll_ctx (cutContexts_nodup hnd _)]
    rfl

/-- What the cut rule shows of an entry with at most one reservation of a context. -/
theorem cutRule_shown (hnd : (e.reservations.map (·.ctx)).Nodup) :
    CutsShown s (cutRule id s).1 (cutContexts e.reservations e.balance) none none := by
  refine ⟨fun d _ => cutRule_ctx h hnd d, fun m _ => cutRule_lane h m, ?_⟩
  by_cases hc : cutContexts e.reservations e.balance = []
  · rw [cutRule_untouched h hc, hc]
    exact ⟨rfl, ⟨rfl, fun d _ => rfl⟩, rfl⟩
  · have hconds : (reduced id e s).conds = s.conds := by rw [reduced, bumpAll_conds]; rfl
    have hlanes : lanesOf (reduced id e s) (cutContexts e.reservations e.balance) =
        lanesOf s (cutContexts e.reservations e.balance) := lanesOf_congr (fun d => bumpAll_attachment _ d _) _
    rw [cutRule_reduces h hc, hlanes]
    refine ⟨?_, ⟨?_, fun d hd => ?_⟩, ?_⟩
    · rw [raise_cond, if_pos rfl, if_neg hc, cond_congr hconds]
      rfl
    · rw [raise_mask, hconds]
    · rw [raise_cond, if_neg hd, cond_congr hconds]
    · rw [raise_notices, if_neg hc, noticesAfter_congr hconds, reduced, bumpAll_notices]
      rfl

end

/-- A cut shown between two states is shown between states that differ from them in a lane and a context left out. -/
theorem CutsShown.congr {s u v t : State} {cut : List CtxNo} {l : Option LaneNo} {c : Option CtxNo}
    (h : CutsShown u v cut none none) (hctxs : u.ctxs = s.ctxs) (hlanes : ∀ m, some m ≠ l → u.lane m = s.lane m)
    (hconds : u.conds = s.conds) (hnotices : u.notices = s.notices) (htctx : ∀ d, some d ≠ c → t.ctx d = v.ctx d)
    (htlane : ∀ m, some m ≠ l → t.lane m = v.lane m) (htconds : t.conds = v.conds) (htnotices : t.notices = v.notices) :
    CutsShown s t cut l c := by
  obtain ⟨hctx, hlane, hcond, ⟨hmask, hother⟩, hnotice⟩ := h
  have hof : lanesOf u cut = lanesOf s cut := lanesOf_congr (fun d => by rw [ctx_congr hctxs]) cut
  rw [hof, cond_congr hconds] at hcond
  refine ⟨fun d hd => ?_, fun m hm => ?_, (cond_congr htconds _).trans hcond, ⟨?_, fun d hd => ?_⟩, ?_⟩
  · rw [htctx d hd, hctx d (by simp), ctx_congr hctxs]
  · rw [htlane m hm, hlane m (by simp), hof, hlanes m hm]
  · rw [htconds, hmask, hconds]
  · rw [cond_congr htconds, hother d hd, cond_congr hconds]
  · rw [htnotices, hnotice, noticesAfter_congr hconds, hnotices]

/-! ### ACCOUNT_BALANCE (R128) -/

theorem account_holds_nodup {s : State} (h : AccountsOrdered s) {id : Nat} {e : AccountEntry}
    (he : s.account id = some e) : (e.reservations.map (·.ctx)).Nodup := by
  obtain ⟨-, hnodup⟩ := h
  exact hnodup e (List.mem_of_find?_eq_some he)

/-- The frame of a bulk request whose body leaves `v`, where `s'` is the state before with what else the request
changes. -/
theorem bulkFrame_body {s s' v : State} {f : Frame} (g : Frame)
    (hv : v = { s' with bulk := v.bulk, link := v.link, mainQ := v.mainQ, draws := v.draws })
    (hd : v.link = (bulkTaken f s).link) (hq : v.mainQ = (bulkTaken f s).mainQ) (hn : v.draws = s.draws)
    (hl' : s'.link = s.link) (hq' : s'.mainQ = s.mainQ) (hn' : s'.draws = s.draws) :
    BulkFrame s' (settleClaims (placeReserved g v)) := by
  refine ⟨?_, ?_⟩
  · have hlink : v.link = { s'.link with deviceHolds := v.link.deviceHolds } := by
      rw [hd, hl']; exact bulkTaken_link ..
    apply State.ext <;> simp
    case link => exact hlink
    all_goals rw [hv]
  · have hs := settleClaims_served (placeReserved g v)
    simpa [placeReserved, hq, hq', hn, hn', bulkTaken_requests, bulkTaken_served] using hs

/-- A bulk request whose body changes the account table and applies the cut rule to an entry: reply, contexts cut,
accounts and frame. -/
theorem cut_applied_bulk {s w : State} {k : Byte} {r : Req} {id : Nat} {e : AccountEntry}
    (hw : w = { bulkTaken (r.frame k) s with accounts := w.accounts }) (he : w.account id = some e)
    (hnd : (e.reservations.map (·.ctx)).Nodup) (fields : List Byte) :
    ∃ t, Host.Outcome.next (φ := Fault) (ρ := Refusal)
        (settleClaims (answerBulk k r ((cutRule id w).1, .reply .ok fields))) = .next t ∧
      BulkAnswered s t k r .ok fields ∧ CutsShown s t (cutContexts e.reservations e.balance) none none ∧
      t.accounts = (cutRule id w).1.accounts ∧
      BulkFrame { s with lanes := t.lanes, ctxs := t.ctxs, accounts := t.accounts, conds := t.conds
                         notices := t.notices } t := by
  have hbulk : w.bulk = (bulkTaken (r.frame k) s).bulk := by rw [hw]
  have hlink : w.link = (bulkTaken (r.frame k) s).link := by rw [hw]
  have hmainQ : w.mainQ = (bulkTaken (r.frame k) s).mainQ := by rw [hw]
  have hdraws : w.draws = s.draws := by rw [hw]; exact bulkTaken_draws ..
  rw [answerBulk_reply]
  refine ⟨_, rfl, bulkAnswered_of (by simpa using hbulk) (by simp [hlink]) (by simpa using hmainQ), ?_, by simp,
    bulkFrame_body (s := s) (f := r.frame k) _ ?_ (by simpa using hlink) (by simpa using hmainQ)
      (by simpa using hdraws) rfl rfl rfl⟩
  · refine (cutRule_shown he hnd).congr ?_ (fun m _ => lane_congr ?_ m) ?_ ?_ (fun d _ => ctx_congr (by simp) d)
      (fun m _ => lane_congr (by simp) m) (by simp) (by simp)
    all_goals rw [hw]
    all_goals simp
  · apply State.ext <;> simp
    all_goals rw [hw]
    all_goals simp

theorem accountIdOk_eq (n : Nat) : accountIdOk n = decide (1 ≤ n ∧ n ≤ 1099511627775) := by
  rw [Bool.decide_and]; rfl

/-- An account id in range and a balance in range, as the checks of ACCOUNT_BALANCE name them. -/
theorem balanceChecks_eq (id balance : Nat) :
    [(accountIdOk id, 0), (decide (balance ≤ maxPoints), 5)] =
      [(decide (1 ≤ id ∧ id ≤ 1099511627775), 0), (decide (balance ≤ 99999999), 5)] := by
  rw [accountIdOk_eq]; rfl

/-- An entry with another balance. -/
def AccountEntry.withBalance (balance : Nat) (e : AccountEntry) : AccountEntry :=
  { e with balance := balance }

section
variable {p : List Byte} {u : State}

theorem accountBalanceBody_bad {off : Nat}
    (h : firstBad [(accountIdOk (field p 0 5), 0), (decide (field p 5 4 ≤ maxPoints), 5)] = some off) :
    accountBalanceBody p u = (u, badField 0 off) := by
  simp only [accountBalanceBody, h]

variable (hok : firstBad [(accountIdOk (field p 0 5), 0), (decide (field p 5 4 ≤ maxPoints), 5)] = none)
include hok

theorem accountBalanceBody_unknown (h : u.account (field p 0 5) = none) :
    accountBalanceBody p u = (u, .reply .unknownAccount []) := by
  simp only [accountBalanceBody, hok, h]

theorem accountBalanceBody_ok {e : AccountEntry} (h : u.account (field p 0 5) = some e) {w : State}
    (hw : w = changeAccount (field p 0 5) (AccountEntry.withBalance (field p 5 4)) u) :
    accountBalanceBody p u = ((cutRule (field p 0 5) w).1,
      .reply .ok (enc 5 (field p 0 5) ++ enc 4 (field p 5 4)
        ++ enc 4 ((cutHolds e.reservations (field p 5 4)).map (·.points)).sum
        ++ enc 2 (cutContexts e.reservations (field p 5 4)).length
        ++ enc 2 (e.reservations.length - (cutHolds e.reservations (field p 5 4)).length)
        ++ enc 4 (field p 5 4 - ((cutHolds e.reservations (field p 5 4)).map (·.points)).sum))) := by
  have he : w.account (field p 0 5) = some (e.withBalance (field p 5 4)) := by
    rw [hw]; exact changeAccount_same (AccountEntry.withBalance _) (fun _ => rfl) h
  have hacc := cutRule_account he (field p 0 5)
  rw [if_pos rfl] at hacc
  have hcounts := cutRule_counts he
  subst hw
  unfold AccountEntry.withBalance at hacc hcounts
  simp only [accountBalanceBody, hok, h, hacc, hcounts]
  rfl

end

/-- Settles O28: the checks in their order, and for an entry the cut rule on it with the balance given. -/
theorem accountBalanceAppliesTheCutRule : Obligations.AccountBalanceAppliesTheCutRule := by
  intro s r id balance ht h0 hacc hlen hid hbalance
  subst hid hbalance
  have hbody : withLength 9 r (accountBalanceBody r.payload) (bulkTaken (r.frame 0x29) s) =
      accountBalanceBody r.payload (bulkTaken (r.frame 0x29) s) := by rw [withLength, if_pos hlen]
  have haccount : ∀ j, (bulkTaken (r.frame 0x29) s).account j = s.account j := account_congr (bulkTaken_accounts ..)
  have hnone : 1 ≤ field r.payload 0 5 → field r.payload 0 5 ≤ 1099511627775 → field r.payload 5 4 ≤ 99999999 →
      firstBad [(accountIdOk (field r.payload 0 5), 0), (decide (field r.payload 5 4 ≤ maxPoints), 5)] = none :=
    fun h1 h2 h3 => by rw [balanceChecks_eq, firstBad_none]; simp [h1, h2, h3]
  refine ⟨fun off hfails => ?_, fun e h1 h2 h3 he => ?_, fun h1 h2 h3 hn => ?_⟩
  · refine bulkRequest_refused h0 ht _ ?_
    rw [hbody, accountBalanceBody_bad (by rw [balanceChecks_eq]; exact firstFails_iff.1 hfails)]
    rfl
  · have hrun : exec (.accountBalance r) s = _ :=
      bulkRequest_takes h0 ht (withLength 9 r (accountBalanceBody r.payload))
    rw [hbody, accountBalanceBody_ok (hnone h1 h2 h3) ((haccount _).trans he) rfl] at hrun
    have hself := changeAccount_same (AccountEntry.withBalance (field r.payload 5 4)) (fun _ => rfl)
      ((haccount _).trans he)
    have hnd := account_holds_nodup hacc he
    obtain ⟨t, ht', ha, hshown, hta, hf⟩ := cut_applied_bulk (r := r) (k := 0x29) rfl hself hnd _
    refine ⟨t, hrun.trans ht', ha, ?_, fun j hj => ?_, hshown, hf⟩
    · rw [account_congr hta, cutRule_account hself, if_pos rfl]; rfl
    · rw [account_congr hta, cutRule_account hself, if_neg hj,
        changeAccount_account _ (g := AccountEntry.withBalance _) fun _ => rfl, if_neg hj, haccount]
  · refine bulkRequest_refused h0 ht _ ?_
    rw [hbody, accountBalanceBody_unknown (hnone h1 h2 h3) ((haccount _).trans hn)]

end Sys2Proof.Machine

/-! ATTACH_ACCOUNT (R116, R119, R120, R127): the reference moved, the entry created or given its balance and cut. -/

namespace Sys2Proof.Machine

/-! ### The reference to another account dropped (R120, step 2) -/

theorem dropOther_accounts_only (c : CtxNo) (id : Nat) (s : State) :
    dropOther c id s = { s with accounts := (dropOther c id s).accounts } := by
  unfold dropOther
  split
  · split <;> rfl
  · rfl

/-- A context that refers to no other account keeps what it refers to. -/
theorem dropOther_self {c : CtxNo} {id : Nat} {s : State} (h : ∀ a, (s.ctx c).account = some a → a.id = id) :
    dropOther c id s = s := by
  unfold dropOther
  split
  · next a ha => exact if_pos (h a ha)
  · rfl

theorem dropOther_other {c : CtxNo} {id : Nat} {s : State} {a : AccountRef} (h : (s.ctx c).account = some a)
    (hne : a.id ≠ id) : dropOther c id s = dropReference a.id s := by
  simp only [dropOther, h, if_neg hne]

/-- The state once the reservation of a context and its reference to an account other than `id` are gone (R120, steps 1
and 2). -/
def movedFrom (c : CtxNo) (id : Nat) (s : State) : State := dropOther c id (removeReservation c s)

theorem movedFrom_accounts_only (c : CtxNo) (id : Nat) (s : State) :
    movedFrom c id s = { s with accounts := (movedFrom c id s).accounts } :=
  dropOther_accounts_only c id (removeReservation c s)

theorem movedFrom_ctx (c d : CtxNo) (id : Nat) (s : State) : (movedFrom c id s).ctx d = s.ctx d :=
  ctx_congr (by rw [movedFrom_accounts_only]) d

/-- The account table of that state after a take. -/
theorem movedFrom_account {s : State} {l : LaneNo} {c : CtxNo} (hc : (s.lane l).ctx = some c) (hacc : AccountsOrdered s)
    (f : Frame) (id j : Nat) : (movedFrom c id (laneTaken f l s)).account j =
      if j = id then (s.account j).map (withoutHold c) else accountLeft s c (referredId s c) 0 j := by
  have hctx : (removeReservation c (laneTaken f l s)).ctx c = s.ctx c := by
    rw [ctx_congr (removeReservation_ctxs ..), laneTaken_ctx]
  unfold movedFrom
  by_cases hother : ∃ a, (s.ctx c).account = some a ∧ a.id ≠ id
  · obtain ⟨a, ha, hne⟩ := hother
    rw [dropOther_other (hctx.symm ▸ ha) hne, dropped_account hc hacc ha, referredId, ha, Option.map_some]
    split
    · next hj => exact accountLeft_kept (fun h => hne (by rw [← hj, Option.some.inj h])) ..
    · rfl
  · have hsame : ∀ a, (s.ctx c).account = some a → a.id = id := fun a ha =>
      Decidable.of_not_not fun hne => hother ⟨a, ha, hne⟩
    rw [dropOther_self (by rwa [hctx]), removed_account hc]
    split
    · rfl
    · next hj =>
      refine (accountLeft_kept (fun h => hj ?_) s c 0).symm
      obtain ⟨a, ha, haj⟩ := Option.map_eq_some_iff.1 h
      rw [← haj, hsame a ha]

/-! ### The balance given (R120, steps 3 and 4) -/

/-- The entry of an account as ATTACH_ACCOUNT creates it. -/
def freshEntry (id balance : Nat) : AccountEntry := { id := id, balance := balance, refs := 1, reservations := [] }

/-- The state with an account's entry created. -/
def withEntry (e : AccountEntry) (s : State) : State := { s with accounts := s.accounts ++ [e] }

theorem withEntry_account {s : State} {e : AccountEntry} (h : s.account e.id = none) (j : Nat) :
    (withEntry e s).account j = if j = e.id then some e else s.account j := by
  have hfind : (withEntry e s).account j = (s.account j).or ([e].find? (·.id == j)) := List.find?_append
  rw [hfind]
  by_cases hj : j = e.id
  · rw [hj, h, if_pos rfl]; simp
  · rw [if_neg hj, List.find?_cons_of_neg (by simpa using Ne.symm hj), List.find?_nil, Option.or_none]

/-- An entry known before with the balance given, and a reference more unless the basket already refers to it. -/
def attachedEntry (s : State) (c : CtxNo) (balance : Nat) (e : AccountEntry) : AccountEntry :=
  { e with balance := balance, refs := if referredId s c = some e.id then e.refs else e.refs + 1 }

theorem attachedEntry_congr {s w : State} {c : CtxNo} (h : w.ctx c = s.ctx c) :
    attachedEntry w c = attachedEntry s c := by
  unfold attachedEntry referredId
  rw [h]

theorem refersTo_iff (s : State) (c : CtxNo) (id : Nat) : refersTo s c id = true ↔ referredId s c = some id := by
  unfold refersTo referredId
  cases (s.ctx c).account <;> simp

theorem giveBalance_new {c : CtxNo} {id balance : Nat} {w : State} (h : w.account id = none) :
    giveBalance c id balance w = (withEntry (freshEntry id balance) w, true, 0) := by
  simp only [giveBalance, h]
  rfl

theorem giveBalance_known {c : CtxNo} {id balance : Nat} {w : State} {e : AccountEntry} (h : w.account id = some e) :
    giveBalance c id balance w =
      ((cutRule id (changeAccount id (attachedEntry w c balance) w)).1, false,
        (cutRule id (changeAccount id (attachedEntry w c balance) w)).2.1) := by
  have hchange : changeAccount id (attachedEntry w c balance) w = changeAccount id (fun e =>
      { e with balance := balance, refs := if refersTo w c id then e.refs else e.refs + 1 }) w := by
    unfold changeAccount
    congr 1
    refine List.map_congr_left fun y _ => ?_
    by_cases hy : y.id = id
    · simp only [hy, beq_self_eq_true, if_true, attachedEntry, refersTo_iff]
    · simp [hy]
  rw [hchange]
  simp only [giveBalance, h]

/-! ### ATTACH_ACCOUNT (R119, R120) -/

/-- The reference a payload of ATTACH_ACCOUNT describes (R119). -/
def attachedRef (p : List Byte) : AccountRef :=
  { id := field p 0 5, tier := field p 9 1, trade := decide (field p 10 1 = 1) }

theorem attachChecks_eq (p : List Byte) : attachChecks p =
    [ (decide (1 ≤ field p 0 5 ∧ field p 0 5 ≤ 1099511627775), 0), (decide (field p 5 4 ≤ 99999999), 5),
      (decide (field p 9 1 ≤ 3), 9), (decide (field p 10 1 ≤ 1), 10) ] := by
  rw [attachChecks, accountIdOk_eq]; rfl

theorem attachBody_bad {p : List Byte} {c : CtxNo} {u : State} {off : Nat}
    (h : firstBad (attachChecks p) = some off) : attachBody p c u = (u, badField 0 off) := by
  simp only [attachBody, h]

theorem entryFields_of {s : State} {c : CtxNo} {id : Nat} {e : AccountEntry} (h : s.account id = some e) :
    entryFields s c id = enc 4 e.balance ++ enc 4 (e.availableTo c) ++ enc 1 e.refs := by
  simp only [entryFields, h]

/-- ATTACH_ACCOUNT accepted, by what its steps 1 to 4 leave and the entry they leave of the account. -/
theorem attachBody_ok {p : List Byte} {c : CtxNo} {u v : State} {created : Bool} {cuts : Nat} {e : AccountEntry}
    (h : firstBad (attachChecks p) = none)
    (hg : giveBalance c (field p 0 5) (field p 5 4) (movedFrom c (field p 0 5) u) =
      (v, created, cuts)) (he : v.account (field p 0 5) = some e) :
    attachBody p c u = (bumpRevision c (v.setCtx c { v.ctx c with account := some (attachedRef p) }),
      .reply .ok (enc 5 (field p 0 5) ++ enc 4 e.balance ++ enc 4 (e.availableTo c) ++ enc 1 e.refs
        ++ encFlag created ++ enc 4 (u.reserved c) ++ enc 2 cuts)) := by
  have hentry : ∀ x, entryFields (bumpRevision c (v.setCtx c x)) c (field p 0 5) =
      enc 4 e.balance ++ enc 4 (e.availableTo c) ++ enc 1 e.refs := fun x =>
    entryFields_of (by rw [account_congr (bumpRevision_accounts ..), account_congr (setCtx_accounts ..), he])
  unfold movedFrom at hg
  simp only [attachBody, h, hg, hentry, stepFlag, List.append_assoc]
  rfl

/-- Where a context has no reservation, all of them count against what is available to it (R117). -/
theorem availableTo_others {e : AccountEntry} {c : CtxNo} (h : ∀ d ∈ e.reservations, d.ctx ≠ c) :
    e.availableTo c = e.balance - (e.reservations.map (·.points)).sum := by
  rw [AccountEntry.availableTo, List.filter_eq_self.2 fun d hd => by simpa using h d hd]

section
variable {p : List Byte} {c : CtxNo} {u w : State} {id balance : Nat} (hid : field p 0 5 = id)
  (hbalance : field p 5 4 = balance) (hok : firstBad (attachChecks p) = none) (hw : movedFrom c id u = w)
include hid hbalance hok hw

/-- ATTACH_ACCOUNT for an account without an entry. -/
theorem attachBody_new (hn : w.account id = none) :
    attachBody p c u =
      (bumpRevision c ((withEntry (freshEntry id balance) w).setCtx c
          { u.ctx c with account := some (attachedRef p) }),
        .reply .ok (enc 5 id ++ enc 4 balance ++ enc 4 balance ++ [1] ++ [1] ++ enc 4 (u.reserved c) ++ enc 2 0)) := by
  have hctx : (withEntry (freshEntry id balance) w).ctx c = u.ctx c := by
    rw [← hw]; exact movedFrom_ctx c c id u
  rw [attachBody_ok hok (by rw [hid, hbalance, hw, giveBalance_new hn])
    (by rw [hid]; exact (withEntry_account hn id).trans (if_pos rfl)), hid, hctx]
  rfl

/-- ATTACH_ACCOUNT for an account with an entry, in which the context has no reservation any more. -/
theorem attachBody_known {e : AccountEntry} (he : w.account id = some e) (hnd : (e.reservations.map (·.ctx)).Nodup)
    (hothers : ∀ d ∈ e.reservations, d.ctx ≠ c) :
    attachBody p c u =
      (bumpRevision c ((cutRule id (changeAccount id (attachedEntry u c balance) w)).1.setCtx c
          { u.ctx c with account := some (attachedRef p) }),
        .reply .ok (enc 5 id ++ enc 4 balance
          ++ enc 4 (balance - ((cutHolds e.reservations balance).map (·.points)).sum)
          ++ enc 1 (attachedEntry u c balance e).refs ++ [0] ++ enc 4 (u.reserved c)
          ++ enc 2 (cutContexts e.reservations balance).length)) := by
  have hctx : w.ctx c = u.ctx c := by rw [← hw]; exact movedFrom_ctx c c id u
  have hgiven := changeAccount_same (attachedEntry u c balance) (fun _ => rfl) he
  have hnot : c ∉ cutContexts e.reservations balance := fun h =>
    let ⟨d, hd, hdc⟩ := List.mem_map.1 (cutContexts_subset h)
    hothers d hd hdc
  have hleft : ∀ d ∈ cutHolds e.reservations balance, d.ctx ≠ c := fun d h hdc =>
    let ⟨y, hy, hyd⟩ := List.mem_map.1 (cutHolds_subset h)
    hothers y hy (hyd.trans hdc)
  have hvctx : (cutRule id (changeAccount id (attachedEntry u c balance) w)).1.ctx c = u.ctx c := by
    rw [cutRule_ctx hgiven hnd]
    exact (if_neg hnot).trans hctx
  rw [attachBody_ok hok (by rw [hid, hbalance, hw, giveBalance_known he])
    (by rw [hid, attachedEntry_congr hctx]; exact (cutRule_account hgiven id).trans (if_pos rfl)),
    attachedEntry_congr hctx, hvctx, hid, cutRule_counts hgiven, availableTo_others hleft]
  rfl

end

/-- A request on a basket whose body changes the account table, applies the cut rule to an entry, changes its context
and answers OK: reply, basket, contexts cut, accounts and frame. -/
theorem cut_applied_on {s w : State} {l : LaneNo} {c : CtxNo} {a : Attachment} (hb : OnBasket s l c a) {k : Byte}
    {r : Req} (hw : w = { laneTaken (r.frame k) l s with accounts := w.accounts }) {id : Nat} {e : AccountEntry}
    (he : w.account id = some e) (hnd : (e.reservations.map (·.ctx)).Nodup) {x : Context}
    (hx : x.place = .attached a) (fields : List Byte) :
    ∃ t, Host.Outcome.next (φ := Fault) (ρ := Refusal) (settleClaims (answerLane k r l
        (bumpRevision c ((cutRule id w).1.setCtx c x), .reply .ok fields))) = .next t ∧
      LaneAnswered s t k r .ok (x.revision + 1) fields ∧ t.ctx c = revised a x ∧
      t.lane l = { watched s l with state := .opened, subtotalOwed := false } ∧
      CutsShown s t (cutContexts e.reservations e.balance) (some l) (some c) ∧
      t.accounts = (cutRule id w).1.accounts ∧
      LaneFrame { s with conds := t.conds, notices := t.notices } t := by
  obtain ⟨hst, hc, -, hal⟩ := hb
  have hshown := cutRule_shown he hnd
  have hwlane : ∀ m, w.lane m = if m = l then watched s l else s.lane m := fun m => by
    rw [lane_congr (s := laneTaken (r.frame k) l s) (by rw [hw]), laneTaken_lane_on hst]
  have hover : ((cutRule id w).1.lane l).overtaken =
      { watched s l with state := .opened, subtotalOwed := false } := by
    rw [cutRule_lane he, hwlane, if_pos rfl, ← overtaken_watched hst]
    split
    · exact Lane.overtaken_overtaken _
    · rfl
  rw [bumpRevision_setCtx hx, hal, hover, answerLane_reply]
  generalize hv : (cutRule id w).1 = v at hshown ⊢
  have hpool : v.pool = (laneTaken (r.frame k) l s).pool := by rw [← hv, cutRule_pool, hw]
  have hlink : v.link = (laneTaken (r.frame k) l s).link := by rw [← hv, cutRule_link, hw]
  have hmainQ : v.mainQ = (laneTaken (r.frame k) l s).mainQ := by rw [← hv, cutRule_mainQ, hw]
  have hdraws : v.draws = s.draws := by rw [← hv, cutRule_draws, hw]; exact laneTaken_draws ..
  have hrev : ((v.setCtx c (revised a x)).setLane l
      { watched s l with state := .opened, subtotalOwed := false }).laneRevision l = x.revision + 1 := by
    simp only [State.laneRevision, lane_setLane_same, watched, hc]
    rw [ctx_congr (setLane_ctxs ..), ctx_setCtx_same]; rfl
  refine ⟨_, rfl, LaneAnswered.of_body (by simpa using hpool) (by simpa using hlink) (by simpa using hmainQ) hrev,
    ?_, ?_, ?_, by simp, laneFrame_body (s := s) _ ?_ (by simpa using hlink) (by simpa using hmainQ)
      (by simpa using hdraws) rfl rfl rfl⟩
  · rw [ctx_congr (settleClaims_ctxs _), ctx_congr (placeReserved_ctxs ..), ctx_congr (setLane_ctxs ..),
      ctx_setCtx_same]
  · rw [lane_congr (settleClaims_lanes _), lane_congr (placeReserved_lanes ..), lane_setLane_same]
  · refine hshown.congr ?_ (fun m hm => ?_) ?_ ?_ (fun d hd => ?_) (fun m hm => ?_) (by simp) (by simp)
    · rw [hw]; simp
    · rw [hwlane, if_neg fun h => hm (congrArg some h)]
    · rw [hw]; simp
    · rw [hw]; simp
    · rw [ctx_congr (settleClaims_ctxs _), ctx_congr (placeReserved_ctxs ..), ctx_congr (setLane_ctxs ..),
        ctx_setCtx_ne _ _ fun h => hd (congrArg some h)]
    · rw [lane_congr (settleClaims_lanes _), lane_congr (placeReserved_lanes ..),
        lane_setLane_ne _ _ fun h => hm (congrArg some h), lane_congr (setCtx_lanes ..)]
  · apply State.ext <;> simp [← hv]
    all_goals rw [hw]
    all_goals simp

/-- Settles O25: the checks in their order, and by whether the account has an entry the two ways a balance is given. -/
theorem attachAccountMovesTheReference : Obligations.AttachAccountMovesTheReference := by
  intro s r l c a id balance ref checks ht hb hacc hlen hid hbalance hchecks href
  have hrun := basketRequest_takes ht hb hlen (fun _ => attachBody r.payload)
  have hc := hb.laneCtx
  have hsame : checks = attachChecks r.payload := by rw [hchecks, hid, hbalance, attachChecks_eq]
  have hrefs : ref = attachedRef r.payload := by rw [href, hid]; rfl
  subst hsame hrefs
  have hctx : (laneTaken (r.frame 0x09) l s).ctx c = s.ctx c := laneTaken_ctx ..
  have hmoved := movedFrom_account hc hacc (r.frame 0x09) id
  have honly := movedFrom_accounts_only c id (laneTaken (r.frame 0x09) l s)
  generalize hw : movedFrom c id (laneTaken (r.frame 0x09) l s) = w at hmoved honly
  have hself := (hmoved id).trans (if_pos rfl)
  refine ⟨fun off hoff => ?_, fun hok hn => ?_, fun e hok he => ?_⟩
  · rw [attachBody_bad (firstFails_iff.1 hoff)] at hrun
    obtain ⟨t, ht', ha, -⟩ := answered_on hb 0x09 r .badField ([0] ++ enc 1 off)
    exact ⟨t, hrun.trans ht', ha⟩
  · rw [hn, Option.map_none] at hself
    have hnew := withEntry_account (e := freshEntry id balance) hself
    rw [attachBody_new hid.symm hbalance.symm (firstBad_none.2 hok) hw hself, laneTaken_reserved_points hc,
      hctx] at hrun
    obtain ⟨t, ht', hbasket, hta, hf⟩ := changed_accounts_on hb (k := 0x09) (r := r)
      (v := withEntry (freshEntry id balance) w) (by rw [withEntry, honly])
      (x := { s.ctx c with account := some (attachedRef r.payload) }) hb.place _
    refine ⟨t, hrun.trans ht', hbasket, ?_, fun j hj => ?_, hf⟩
    · rw [account_congr hta]; exact (hnew id).trans (if_pos rfl)
    · rw [account_congr hta, hnew j, hmoved]
      exact (if_neg hj).trans (if_neg hj)
  · rw [he, Option.map_some] at hself
    have hnd : ((withoutHold c e).reservations.map (·.ctx)).Nodup :=
      (List.filter_sublist.map _).nodup (account_holds_nodup hacc he)
    have hgiven := changeAccount_same (attachedEntry s c balance) (fun _ => rfl) hself
    have hcut := cutRule_account hgiven
    have heid : referredId s c = some id ↔ referredId s c = some e.id := by rw [account_id he]
    rw [attachBody_known hid.symm hbalance.symm (firstBad_none.2 hok) hw hself hnd fun _ => withoutHold_ctx,
      attachedEntry_congr hctx, laneTaken_reserved_points hc, hctx] at hrun
    obtain ⟨t, ht', ha, hx, hl, hshown, hta, hf⟩ := cut_applied_on hb (k := 0x09) (r := r)
      (w := changeAccount id (attachedEntry s c balance) w) (by rw [changeAccount, honly]) hgiven hnd
      (x := { s.ctx c with account := some (attachedRef r.payload) }) hb.place _
    refine ⟨t, hrun.trans ht', ?_, hx, hl, hshown, ?_, fun j hj => ?_, hf⟩
    · simp only [heid]; exact ha
    · rw [account_congr hta, hcut, if_pos rfl]; simp only [heid]; rfl
    · rw [account_congr hta, hcut, if_neg hj, changeAccount_account id (g := attachedEntry s c balance) fun _ => rfl,
        if_neg hj, hmoved, if_neg hj]

end Sys2Proof.Machine


/-! RESOLUTION_COMPLETE (R140 to R144, R158): the end of the flight, what becomes of its result, and the delivery of a
quote that matches. -/

namespace Sys2Proof.Machine

/-! ### The slots served at the end of a step (R169) -/

/-- A step that writes `u` and then serves the slots. -/
theorem ClaimsSettled.of_eq {u v : State} (h : v = u) : ClaimsSettled u (settleClaims v) :=
  h ▸ settleClaims_settled v

/-- Of two writes of a lane the later one stands. -/
theorem setLane_setLane (s : State) (l : LaneNo) (x y : Lane) : (s.setLane l x).setLane l y = s.setLane l y := by
  simp [State.setLane]

/-! ### SUBTOTAL notices (R143, R144) -/

theorem isSubtotalFor_iff {l : LaneNo} {c : CtxNo} {inc : Counter} {f : Frame} :
    isSubtotalFor l c inc f = true ↔ SubtotalOf l c inc f := by
  simp [isSubtotalFor, SubtotalOf, and_assoc]

theorem any_isSubtotalFor {l : LaneNo} {c : CtxNo} {inc : Counter} {fs : List Frame} :
    fs.any (isSubtotalFor l c inc) = true ↔ ∃ g ∈ fs, SubtotalOf l c inc g := by
  simp only [List.any_eq_true, isSubtotalFor_iff]

section
variable {l : LaneNo} {c : CtxNo} {q : Quote} {u : State}

/-- A SUBTOTAL of the lane, context and incarnation in the queue is replaced in its place. -/
theorem deliverSubtotal_replaces (h : ∃ g ∈ u.mainQ.frames, SubtotalOf l c q.incarnation g) :
    deliverSubtotal l c q u = replaceSubtotal l c q.incarnation (subtotalFrame l c q) u :=
  if_pos (any_isSubtotalFor.2 h)

theorem deliverSubtotal_places (h : ∀ g ∈ u.mainQ.frames, ¬ SubtotalOf l c q.incarnation g) (hfree : 0 < u.freeSlots) :
    deliverSubtotal l c q u = setOwed l false (placeFrame (subtotalFrame l c q) u) :=
  (if_neg fun hany => let ⟨g, hg, hs⟩ := any_isSubtotalFor.1 hany; h g hg hs).trans (if_pos hfree)

theorem deliverSubtotal_owes (h : ∀ g ∈ u.mainQ.frames, ¬ SubtotalOf l c q.incarnation g) (hfull : u.freeSlots = 0) :
    deliverSubtotal l c q u = setOwed l true u :=
  (if_neg fun hany => let ⟨g, hg, hs⟩ := any_isSubtotalFor.1 hany; h g hg hs).trans (if_neg (by omega))

/-- The frames of the queue under a replacement, one by one. -/
theorem replaceSubtotal_frame {inc : Counter} {f g : Frame} {n : Nat} (h : u.mainQ.frames[n]? = some g) :
    (SubtotalOf l c inc g → (replaceSubtotal l c inc f u).mainQ.frames[n]? = some f) ∧
      (¬ SubtotalOf l c inc g → (replaceSubtotal l c inc f u).mainQ.frames[n]? = some g) := by
  have hmap : (replaceSubtotal l c inc f u).mainQ.frames[n]? = some (if isSubtotalFor l c inc g then f else g) := by
    simp [replaceSubtotal, h]
  simp only [← isSubtotalFor_iff, hmap]
  exact ⟨fun hs => by rw [if_pos hs], fun hs => by rw [if_neg hs]⟩

/-! ### Delivery by the lane's state and the tracking mode (R141, R142) -/

/-- The bytes of a QUOTE (R142, R189). -/
theorem quoteReply_eq {r : Counter} (h : (u.ctx c).revision = r) : quoteReply l c q u =
    { kind := 0x8E, lane := laneByte l, tag := (u.lane l).quoteTag
      payload := [0] ++ enc 2 r.toNat ++ [ctxByte c] ++ q.summary
        ++ q.applied.flatMap fun e => enc 2 e.offer ++ enc 4 e.saving } := by
  simp [quoteReply, quoteFields, h, OutcomeCode.code]

/-- The QUOTE to a lane in QUOTING, as one write of the main queue and one of the lane. -/
theorem deliverQuote_eq : deliverQuote l c q u = (placeReserved (quoteReply l c q u) u).setLane l
    { watched u l with state := .totalled, subtotalOwed := false } := by
  rw [deliverQuote, startIdle_zero, lane_setLane_same, setLane_setLane]
  rfl

theorem deliver_quoting {a : Attachment} (h : (u.lane a.lane).state = .quoting) :
    deliver a c q u = (placeReserved (quoteReply a.lane c q u) u).setLane a.lane
      { watched u a.lane with state := .totalled, subtotalOwed := false } :=
  (if_pos h).trans deliverQuote_eq

theorem deliver_onDemand {a : Attachment} (h : (u.lane a.lane).state ≠ .quoting) (ht : a.tracking = .onDemand) :
    deliver a c q u = u := by
  rw [deliver, if_neg h, ht]

theorem deliver_tracking {a : Attachment} (h : (u.lane a.lane).state ≠ .quoting) (ht : a.tracking = .tracking) :
    deliver a c q u = deliverSubtotal a.lane c q u := by
  rw [deliver, if_neg h, ht]

/-- A delivery writes no lane but that of the attachment. -/
theorem deliver_lane_ne {a : Attachment} {m : LaneNo} (hm : m ≠ a.lane) : (deliver a c q u).lane m = u.lane m := by
  unfold deliver
  split
  · rw [deliverQuote_eq]; exact lane_setLane_ne _ _ hm
  · split
    · unfold deliverSubtotal
      dsimp only
      split
      · rfl
      · split <;> exact lane_setLane_ne _ _ hm
    · rfl

end

/-! ### The result of a completion (R140, R141) -/

section
variable {q : Snapshot} {u : State} {x : Context} {a : Attachment}

/-- The context has been freed, reopened or parked meanwhile. -/
theorem dealWith_gone (hx : u.ctx q.ctx = x)
    (h : x.incarnation ≠ q.incarnation ∨ ∀ a, x.place ≠ .attached a) : dealWith q u = u := by
  unfold dealWith
  dsimp only
  rw [hx]
  split
  · rfl
  · next hi =>
    split
    · rfl
    · rfl
    · next a ha => exact absurd ha (h.resolve_left hi a)

/-- What is done for a context that is still the basket the snapshot was taken of. -/
theorem dealWith_attached (hx : u.ctx q.ctx = x) (ha : x.place = .attached a) (hi : x.incarnation = q.incarnation) :
    dealWith q u =
      if x.revision ≠ q.revision then
        if (u.lane a.lane).state = .quoting ∨ a.tracking = .tracking then u.setCtx q.ctx { x with wanted := true } else u
      else deliver a q.ctx (u.quoteOf q) (u.setCtx q.ctx { x with quote := some (u.quoteOf q), wanted := false }) := by
  unfold dealWith
  dsimp only
  rw [hx, if_neg (not_not_intro hi)]
  split
  · next h => cases ha.symm.trans h
  · next h => cases ha.symm.trans h
  · next h => cases ha.symm.trans h; rfl

/-- The context has moved to a new revision meanwhile. -/
theorem dealWith_overtaken (hx : u.ctx q.ctx = x) (ha : x.place = .attached a) (hi : x.incarnation = q.incarnation)
    (hr : x.revision ≠ q.revision) : dealWith q u = u.setCtx q.ctx { x with
      wanted := if (u.lane a.lane).state = .quoting ∨ a.tracking = .tracking then true else x.wanted } := by
  rw [dealWith_attached hx ha hi, if_pos hr]
  split
  · rfl
  · rw [← hx]; exact (setCtx_self ..).symm

theorem dealWith_matching (hx : u.ctx q.ctx = x) (ha : x.place = .attached a) (hi : x.incarnation = q.incarnation)
    (hr : x.revision = q.revision) : dealWith q u =
      deliver a q.ctx (u.quoteOf q) (u.setCtx q.ctx { x with quote := some (u.quoteOf q), wanted := false }) :=
  (dealWith_attached hx ha hi).trans (if_neg (not_not_intro hr))

end

/-- All a completion can write: nothing, the context, or the context and what a delivery to its lane writes. -/
theorem dealWith_cases (q : Snapshot) (u : State) : dealWith q u = u ∨
    ∃ a x, (u.ctx q.ctx).place = .attached a ∧
      (dealWith q u = u.setCtx q.ctx x ∨ ∃ r, dealWith q u = deliver a q.ctx r (u.setCtx q.ctx x)) := by
  by_cases hgone : (u.ctx q.ctx).incarnation ≠ q.incarnation ∨ ∀ a, (u.ctx q.ctx).place ≠ .attached a
  · exact .inl (dealWith_gone rfl hgone)
  · obtain ⟨hi, a, ha⟩ : (u.ctx q.ctx).incarnation = q.incarnation ∧ ∃ a, (u.ctx q.ctx).place = .attached a := by
      simpa using hgone
    by_cases hr : (u.ctx q.ctx).revision = q.revision
    · exact .inr ⟨a, _, ha, .inr ⟨_, dealWith_matching rfl ha hi hr⟩⟩
    · exact .inr ⟨a, _, ha, .inl (dealWith_overtaken rfl ha hi hr)⟩

/-- A result is for one context. -/
theorem dealWith_ctx_ne (q : Snapshot) (u : State) {d : CtxNo} (hd : d ≠ q.ctx) : (dealWith q u).ctx d = u.ctx d := by
  obtain h | ⟨a, x, -, h | ⟨r, h⟩⟩ := dealWith_cases q u
  · rw [h]
  · rw [h, ctx_setCtx_ne _ _ hd]
  · rw [h, ctx_congr (deliver_ctxs ..), ctx_setCtx_ne _ _ hd]

/-- A result is for the lane its context is attached to. -/
theorem dealWith_lane_ne (q : Snapshot) (u : State) {m : LaneNo}
    (hm : ∀ a, (u.ctx q.ctx).place = .attached a → m ≠ a.lane) : (dealWith q u).lane m = u.lane m := by
  obtain h | ⟨a, x, ha, h | ⟨r, h⟩⟩ := dealWith_cases q u
  · rw [h]
  · rw [h]; rfl
  · rw [h, deliver_lane_ne (hm a ha)]; rfl

/-! ### RESOLUTION_COMPLETE (R140) -/

theorem execResolutionComplete_ends {s : State} (hs : Live s) {f : Flight} (hf : s.sched.flight = some f) :
    execResolutionComplete s = .next (settleClaims (dealWith f.snapshot (endFlight f s))) := by
  rw [execResolutionComplete, whenLive_live hs, hf]

theorem execResolutionComplete_idle {s : State} (hf : s.sched.flight = none) : execResolutionComplete s = .next s :=
  whenLive_idle fun _ => by rw [hf]

/-- Settles O50: the flight ends, and the result is dropped or delivered by what has become of its context. -/
theorem completionDeliversTheQuote : Obligations.CompletionDeliversTheQuote := by
  intro s hlive
  refine ⟨execResolutionComplete_idle, fun f x hf hc hx => ⟨_, execResolutionComplete_ends hlive hf, ?_⟩⟩
  have hxu : (endFlight f s).ctx f.snapshot.ctx = x := by
    rw [← hc, hx]; exact ctx_setCtx_same ..
  refine ⟨fun d hd => ?_, fun hgone => ?_, fun a ha hi => ⟨fun hr => ?_, fun hr q hq => ?_⟩, fun m hm => ?_⟩
  · rw [ctx_congr (settleClaims_ctxs _), dealWith_ctx_ne _ _ (hc ▸ hd)]
    exact ctx_setCtx_ne _ _ hd
  · rw [dealWith_gone hxu hgone, ctx_congr (settleClaims_ctxs _), settleClaims_ctxs, hc]
    exact ⟨hxu, .of_eq rfl⟩
  · rw [dealWith_overtaken hxu ha hi hr, ctx_congr (settleClaims_ctxs _), settleClaims_ctxs, hc, ctx_setCtx_same]
    exact ⟨rfl, .of_eq rfl⟩
  · have hquote : (endFlight f s).quoteOf f.snapshot = q := hq.symm
    rw [dealWith_matching hxu ha hi hr, hquote, ← hc]
    generalize hu : (endFlight f s).setCtx f.ctx { x with quote := some q, wanted := false } = u
    have hctx : u.ctx f.ctx = { x with quote := some q, wanted := false } := by rw [← hu]; exact ctx_setCtx_same ..
    have hus : u = { s with sched := { s.sched with flight := none }, ctxs := u.ctxs } := by rw [← hu]; rfl
    have hlane : ∀ m, u.lane m = s.lane m := lane_congr (by rw [hus])
    have hframes : u.mainQ.frames = s.mainQ.frames := by rw [hus]
    have hfree : u.freeSlots = s.freeSlots := by rw [hus]; rfl
    rw [settleClaims_ctxs, deliver_ctxs, ← hlane, ← hframes, ← hfree]
    refine ⟨?_, fun hst => ?_, fun hst ht => ?_, fun hst ht => ?_⟩
    · rw [ctx_congr (settleClaims_ctxs _), ctx_congr (deliver_ctxs ..), hctx]
    · rw [deliver_quoting hst, lane_congr (settleClaims_lanes _), lane_setLane_same, settleClaims_lanes]
      refine ⟨by rw [hus]; rfl, .of_eq ?_⟩
      rw [quoteReply_eq (r := x.revision) (by rw [hctx]), hus]
      rfl
    · rw [deliver_onDemand hst ht]
      exact .of_eq hus
    · rw [deliver_tracking hst ht]
      refine ⟨fun hold => ?_, fun hnone hfree => ?_, fun hnone hfull => ?_⟩
      · rw [deliverSubtotal_replaces hold, settleClaims_frames]
        exact ⟨.of_eq (by rw [hus]; rfl), List.length_map _, fun n g hg => replaceSubtotal_frame hg⟩
      · rw [deliverSubtotal_places hnone hfree, settleClaims_lanes, lane_congr (settleClaims_lanes _)]
        exact ⟨lane_setLane_same .., .of_eq (by rw [hus]; rfl)⟩
      · rw [deliverSubtotal_owes hnone hfull, settleClaims_lanes, lane_congr (settleClaims_lanes _)]
        exact ⟨lane_setLane_same .., .of_eq (by rw [hus]; rfl)⟩
  · rw [lane_congr (settleClaims_lanes _), dealWith_lane_ne _ _ fun a ha => hm a (hxu ▸ ha)]
    rfl

end Sys2Proof.Machine


/-! OWED_SUBTOTAL, SETTLEMENT_FRAME and SETTLE_END (R144, R149 to R151, R189, R190): the frame each places, when it is
placed, and what goes with the last one. -/

namespace Sys2Proof.Machine

/-! ### A claim that uses its slot (R169) -/

/-- The shape of the three steps: what is to be placed, where there is something, is placed when its claim has a
slot. -/
def placesNext {α : Type} (next : State → Option α) (claim : Claim) (place : α → State → State) (s : State) : Out :=
  whenLive (fun s =>
    match next s with
    | some x => if s.slotFor claim then settleClaims (place x s) else s
    | none => s) s

theorem placesNext_places {α : Type} {next : State → Option α} {claim : Claim} {place : α → State → State} {s : State}
    {x : α} (hs : Live s) (hx : next s = some x) (hslot : s.slotFor claim = true) :
    placesNext next claim place s = .next (settleClaims (place x s)) := by
  rw [placesNext, whenLive_live hs, hx]
  dsimp only
  rw [if_pos hslot]

theorem placesNext_idle {α : Type} {next : State → Option α} {claim : Claim} {place : α → State → State} {s : State}
    (h : next s = none ∨ s.slotFor claim = false) : placesNext next claim place s = .next s := by
  refine whenLive_idle fun _ => ?_
  cases hx : next s with
  | none => rfl
  | some x => exact if_neg (by simp [h.resolve_left (by simp [hx])])

theorem whenLive_congr {f g : State → State} (h : ∀ u, f u = g u) (s : State) : whenLive f s = whenLive g s := by
  rw [funext h]

theorem owedSubtotal_eq (l : LaneNo) (s : State) : exec (.owedSubtotal l) s =
    placesNext (·.owedFrame l) (.owed l) (fun f s => setOwed l false (placeFrame f (useSlot (.owed l) s))) s := by
  show execOwedSubtotal l s = _
  unfold execOwedSubtotal placesNext
  refine whenLive_congr (fun u => ?_) s
  dsimp only
  cases u.owedFrame l <;> rfl

theorem settlementFrame_eq (l : LaneNo) (s : State) : exec (.settlementFrame l) s =
    placesNext (·.openStream l) (.stream l) (fun x => placeSettleFrame l x.1 x.2) s := by
  show execSettlementFrame l s = _
  unfold execSettlementFrame placesNext
  refine whenLive_congr (fun u => ?_) s
  dsimp only
  cases u.openStream l <;> rfl

theorem settleEnd_eq (l : LaneNo) (s : State) : exec (.settleEnd l) s =
    placesNext (·.endingStream l) (.stream l) (endStream l) s := by
  show execSettleEnd l s = _
  unfold execSettleEnd placesNext
  refine whenLive_congr (fun u => ?_) s
  dsimp only
  cases u.endingStream l <;> rfl

section
variable {s : State} {l : LaneNo} {st : Stream}

/-! ### OWED_SUBTOTAL (R144) -/

theorem owedFrame_eq {c : CtxNo} {q : Quote} (ho : (s.lane l).subtotalOwed = true) (hc : (s.lane l).ctx = some c)
    (hq : (s.ctx c).quote = some q) : s.owedFrame l = some (subtotalFrame l c q) := by
  simp [State.owedFrame, ho, hc, hq]

theorem owedFrame_none (h : (s.lane l).subtotalOwed = false) : s.owedFrame l = none :=
  if_neg (by simp [h])

/-! ### The next frame of a stream (R148, R150) -/

theorem atEnd_iff : st.atEnd = true ↔ st.placed = st.lineFrames + 3 := beq_iff_eq

theorem openStream_eq {q : Quote} (hst : s.stream l = some st) (hq : (s.ctx st.ctx).quote = some q)
    (hp : st.placed ≠ st.lineFrames + 3) : s.openStream l = some (st, q) := by
  simp [State.openStream, hst, hq, atEnd_iff, hp]

/-- A stream at its SETTLE_END, or without a quote, has no frame for SETTLEMENT_FRAME to place. -/
theorem openStream_none (hst : s.stream l = some st)
    (h : st.placed = st.lineFrames + 3 ∨ (s.ctx st.ctx).quote = none) : s.openStream l = none := by
  rcases h with hp | hq
  · simp [State.openStream, hst, atEnd_iff, hp]
  · simp [State.openStream, hst, hq]

theorem endingStream_eq (hst : s.stream l = some st) (hp : st.placed = st.lineFrames + 3) :
    s.endingStream l = some st := by
  simp [State.endingStream, hst, atEnd_iff, hp]

theorem endingStream_none (hst : s.stream l = some st) (hp : st.placed ≠ st.lineFrames + 3) :
    s.endingStream l = none := by
  simp [State.endingStream, hst, atEnd_iff, hp]

/-! ### The payloads (R149, R189) -/

theorem nextFrame_lines (x : Context) (q : Quote) (h : st.placed + 1 ≤ st.lineFrames + 1) :
    st.nextFrame x q = (0x64, linesPayload q x.lines (st.placed + 1)) := if_pos h

theorem nextFrame_offers (x : Context) (q : Quote) (h : st.placed + 1 = st.lineFrames + 2) :
    st.nextFrame x q = (0x65, offersPayload q (st.placed + 1)) :=
  (if_neg (by omega)).trans (if_pos h)

theorem nextFrame_coupons (x : Context) (q : Quote) (h : st.lineFrames + 2 < st.placed + 1) :
    st.nextFrame x q = (0x66, couponsPayload q x.coupons (st.placed + 1)) :=
  (if_neg (by omega)).trans (if_neg (by omega))

/-- An entry of SETTLE_LINES, its result zeros without one, and zeros for the override of a line without one. -/
theorem settleLine_eq (q : Quote) (y : Line) : settleLine q y =
    let x := (q.lines.find? fun z => z.line = y.number).getD { line := 0, net := 0, exclusive := 0, stackable := 0 }
    enc 1 y.number ++ [y.flags] ++ enc 2 y.qty
      ++ enc 4 (match y.override with | some o => o.price | none => y.list) ++ enc 4 x.net ++ enc 2 x.exclusive
      ++ enc 1 x.stackable ++ (match y.override with
        | some o => enc 3 o.supervisor ++ enc 1 o.reason
        | none => [0, 0, 0, 0]) := by
  have hfind : q.lines.find? (·.line == y.number) = q.lines.find? fun z => z.line = y.number := rfl
  unfold settleLine Quote.resultOf Line.unitPrice
  rw [hfind]
  cases q.lines.find? fun z => z.line = y.number <;> cases y.override <;> simp only [List.append_assoc] <;> rfl

/-- The entries of SETTLE_COUPONS by their positions. -/
theorem settleCoupons_eq (n : Nat) (ks : List (Coupon × CouponResult)) : settleCoupons n ks =
    (ks.zipIdx n).flatMap fun x => enc 1 x.2 ++ [x.1.1.kind.code] ++ enc 6 x.1.1.serial ++ x.1.2.fields := by
  induction ks generalizing n with
  | nil => rfl
  | cons k ks ih => rw [settleCoupons, ih, List.zipIdx_cons, List.flatMap_cons]

/-- The payload of a SETTLE_LINES from its entries. -/
theorem linesPayload_eq {q : Quote} {entry : Line → List Byte} (h : ∀ y, settleLine q y = entry y) (ls : List Line)
    (n : Nat) : linesPayload q ls n = enc 1 n ++ enc 1 ((ls.drop (12 * (n - 2))).take 12).length
      ++ ((ls.drop (12 * (n - 2))).take 12).flatMap entry := by
  rw [linesPayload, funext h]

theorem couponsPayload_eq (q : Quote) (ks : List Coupon) (n : Nat) : couponsPayload q ks n =
    enc 1 n ++ enc 1 ks.length ++ ((ks.zip q.coupons).zipIdx 1).flatMap fun x =>
      enc 1 x.2 ++ ((match x.1.1.kind with | .offerKey _ => [1] | .storeValue _ _ => [2]) : List Byte)
        ++ enc 6 x.1.1.serial
        ++ ((match x.1.2 with
          | .applied amount => [1] ++ enc 4 amount
          | .notApplied => [2, 0, 0, 0, 0]
          | .dormant => [3, 0, 0, 0, 0]) : List Byte) := by
  rw [couponsPayload, settleCoupons_eq]
  refine congrArg _ (congrArg (List.flatMap · _) (funext fun ⟨⟨k, r⟩, n⟩ => ?_))
  have hkind : [k.kind.code] = (match k.kind with | .offerKey _ => [1] | .storeValue _ _ => [2] : List Byte) := by
    cases k.kind <;> rfl
  have hresult : r.fields = (match r with
      | .applied amount => [1] ++ enc 4 amount
      | .notApplied => [2, 0, 0, 0, 0]
      | .dormant => [3, 0, 0, 0, 0] : List Byte) := by
    cases r <;> rfl
  exact congr (congrArg (fun a b => enc 1 n ++ a ++ enc 6 k.serial ++ b) hkind) hresult

/-! ### The end of a stream (R151) -/

/-- What SETTLE_END writes to the state `v` in which its frame is placed. -/
theorem endStream_eq {v : State} (hv : placeFrame (settleFrameOf l st 0x67 (endPayload st)) (useSlot (.stream l) s) = v)
    {a : Attachment} (ha : (v.ctx st.ctx).place = .attached a) : endStream l st s =
      { v with
        streams := (v.setStream l none).streams, ctxs := (v.setCtx st.ctx (v.ctx st.ctx).freed).ctxs
        lanes := (v.setLane l (vacated (v.lane l))).lanes
        banks := (releasePin a.bank v).banks, conds := (releasePin a.bank v).conds
        notices := (releasePin a.bank v).notices, sched := agedWithout v l } := by
  have hpin : releasePinOf st.ctx v = releasePin a.bank v := by rw [releasePinOf, ha]
  unfold endStream
  dsimp only
  rw [hv, hpin]
  apply State.ext
  case lanes => rw [clearLane_lanes]; simp [freeCtx, State.setLane, State.lane]
  case ctxs => rw [clearLane_ctxs]; simp [freeCtx, State.setCtx, State.ctx]
  case sched => rw [clearLane_sched]; simp [agedWithout]
  case streams => rw [clearLane_streams]; simp [freeCtx, State.setStream]
  all_goals simp

end

/-- Settles O51: what is placed is the next frame by its number, and what SETTLE_END frees beside is one write each. -/
theorem streamsArePlacedFrameByFrame : Obligations.StreamsArePlacedFrameByFrame := by
  intro s l hlive
  rw [owedSubtotal_eq, settlementFrame_eq, settleEnd_eq]
  refine ⟨fun c q ho hc hq hslot => ?_, fun h => placesNext_idle (h.imp_left owedFrame_none),
    fun st q n hst hq hp hn hslot => ?_, fun h => ?_, fun st hst => ⟨fun h => ?_, fun hp => ?_⟩,
    fun st a hst hp ha hslot => ?_⟩
  · refine ⟨_, placesNext_places hlive (owedFrame_eq ho hc hq) hslot, ?_⟩
    rw [settleClaims_frames, settleClaims_lanes, lane_congr (settleClaims_lanes _)]
    refine ⟨rfl, lane_setLane_same .., fun m hm => ?_, .of_eq rfl⟩
    rw [lane_congr (settleClaims_lanes _)]
    exact lane_setLane_ne _ _ hm
  · refine ⟨_, (st.nextFrame (s.ctx st.ctx) q).1, (st.nextFrame (s.ctx st.ctx) q).2,
      placesNext_places hlive (openStream_eq hst hq hp) hslot, fun hlines => ?_, fun hoffers => ?_,
      fun hcoupons => ?_, ?_⟩
    · subst hn
      rw [nextFrame_lines _ _ hlines]
      exact ⟨rfl, linesPayload_eq (settleLine_eq q) ..⟩
    · subst hn
      rw [nextFrame_offers _ _ hoffers]
      exact ⟨rfl, rfl⟩
    · subst hn
      rw [nextFrame_coupons _ _ hcoupons]
      exact ⟨rfl, couponsPayload_eq ..⟩
    · rw [settleClaims_frames, settleClaims_streams, stream_congr (settleClaims_streams _), hn]
      refine ⟨rfl, stream_setStream_same .., fun m hm => ?_, .of_eq rfl⟩
      rw [stream_congr (settleClaims_streams _)]
      exact stream_setStream_ne _ _ hm
  · refine ⟨placesNext_idle (h.imp_left fun hst => ?_), placesNext_idle (h.imp_left fun hst => ?_)⟩
    · rw [State.openStream, hst]
    · rw [State.endingStream, hst]
  · exact placesNext_idle (.inl (openStream_none hst h))
  · exact placesNext_idle (.inl (endingStream_none hst hp))
  · refine ⟨_, placesNext_places hlive (endingStream_eq hst hp) hslot, ?_⟩
    generalize hv : placeFrame (settleFrameOf l st 0x67 (endPayload st)) (useSlot (.stream l) s) = v
    have hpin := releasePin_releases a.bank v
    rw [endStream_eq hv (by rw [← hv]; exact ha), settleClaims_frames, settleClaims_streams, settleClaims_ctxs,
      settleClaims_lanes, settleClaims_banks, settleClaims_conds, settleClaims_notices,
      stream_congr (settleClaims_streams _), ctx_congr (settleClaims_ctxs _), lane_congr (settleClaims_lanes _)]
    subst hv
    refine ⟨rfl, stream_setStream_same .., fun m hm => ?_, ctx_setCtx_same .., fun d hd => ?_, lane_setLane_same ..,
      fun m hm => ?_, ?_, ⟨?_, fun d hd => ?_⟩, releasePin_notices .., .of_eq rfl⟩
    · rw [stream_congr (settleClaims_streams _)]
      exact stream_setStream_ne _ _ hm
    · rw [ctx_congr (settleClaims_ctxs _)]
      exact ctx_setCtx_ne _ _ hd
    · rw [lane_congr (settleClaims_lanes _)]
      exact lane_setLane_ne _ _ hm
    · exact hpin.congr rfl rfl (settleClaims_banks _) (settleClaims_conds _)
    · rw [settleClaims_conds]
      exact releasePin_mask ..
    · rw [cond_congr (settleClaims_conds _)]
      exact releasePin_cond_ne _ _ hd

end Sys2Proof.Machine

/-! PARK (R153, R154): the next unused ticket, what the parked basket gives back, and the reply. -/

namespace Sys2Proof.Machine

/-! ### The next ticket (R153) -/

theorem ticketUsed_iff (s : State) (n : Nat) : ticketUsed s n = true ↔ ∃ e ∈ s.parks.list, e.ticket = n := by
  simp [ticketUsed]

/-- Every ticket tried before the one chosen is in use. -/
theorem nextTicket_first (s : State) (fuel last : Nat) : ∃ k, nextTicket s fuel last = (last + k) % 255 + 1 ∧
    ∀ j, j < k → ticketUsed s ((last + j) % 255 + 1) = true := by
  induction fuel generalizing last with
  | zero => exact ⟨0, rfl, fun j hj => absurd hj (Nat.not_lt_zero j)⟩
  | succ fuel ih =>
    by_cases hu : ticketUsed s (last % 255 + 1) = true
    · obtain ⟨k, hk, hall⟩ := ih (last % 255 + 1)
      have hshift : ∀ j, (last % 255 + 1 + j) % 255 = (last + (j + 1)) % 255 := fun j => by omega
      refine ⟨k + 1, (if_pos hu).trans (by rw [hk, hshift]), fun j hj => ?_⟩
      cases j with
      | zero => exact hu
      | succ j => rw [← hshift]; exact hall j (by omega)
    · exact ⟨0, if_neg hu, fun j hj => absurd hj (Nat.not_lt_zero j)⟩

/-- The ticket PARK and auto-park give a basket. -/
def State.parkTicket (s : State) : Nat := nextTicket s 13 s.parks.lastTicket

theorem parkTicket_congr {s t : State} (h : t.parks = s.parks) : t.parkTicket = s.parkTicket := by
  have hused : ticketUsed t = ticketUsed s := by unfold ticketUsed; rw [h]
  have hnext : ∀ fuel last, nextTicket t fuel last = nextTicket s fuel last := by
    intro fuel
    induction fuel with
    | zero => exact fun _ => rfl
    | succ fuel ih => intro last; simp only [nextTicket, hused, ih]
  unfold State.parkTicket
  rw [hnext, h]

/-- What `BasketParked` says of the ticket. -/
theorem BasketsAgree.parkTicket_chosen {s : State} (h : BasketsAgree s) :
    1 ≤ s.parkTicket ∧ s.parkTicket ≤ 255 ∧ (∀ e ∈ s.parks.list, e.ticket ≠ s.parkTicket) ∧
      ∃ k, s.parkTicket = (s.parks.lastTicket + k) % 255 + 1 ∧
        ∀ j, j < k → ∃ e ∈ s.parks.list, e.ticket = (s.parks.lastTicket + j) % 255 + 1 := by
  have hfree : ticketUsed s s.parkTicket = false := h.ticket_free s.parks.lastTicket
  obtain ⟨k, hk, hall⟩ := nextTicket_first s 13 s.parks.lastTicket
  have hk : s.parkTicket = (s.parks.lastTicket + k) % 255 + 1 := hk
  refine ⟨by omega, by omega, fun e he hn => ?_, k, hk, fun j hj => (ticketUsed_iff ..).1 (hall j hj)⟩
  exact absurd ((ticketUsed_iff ..).2 ⟨e, he, hn⟩) (by simp [hfree])

/-! ### The reservation given back (R154) -/

theorem reservation_none_iff (s : State) (c : CtxNo) :
    s.reservation c = none ↔ ∀ e ∈ s.accounts, ∀ d ∈ e.reservations, d.ctx ≠ c := by
  simp [State.reservation]

/-- The account table of a context without a reservation has nothing to lose. -/
theorem withoutHold_absent {s : State} {c : CtxNo} (h : s.reservation c = none) :
    s.accounts.map (withoutHold c) = s.accounts := by
  refine (List.map_congr_left fun e he => ?_).trans (List.map_id _)
  have hall : (e.reservations.filter fun d => d.ctx ≠ c) = e.reservations :=
    List.filter_eq_self.2 fun d hd => decide_eq_true ((reservation_none_iff s c).1 h e he d hd)
  rw [withoutHold, hall]; rfl

/-- A timer restarted leaves which contexts have a reservation. -/
theorem laneTaken_reservation_none {f : Frame} {l : LaneNo} {s : State} {c : CtxNo} (hc : (s.lane l).ctx = some c) :
    (laneTaken f l s).reservation c = none ↔ s.reservation c = none := by
  have hctx : ∀ d : Reservation,
      (if d.ctx == c then { d with expires := s.after (s.config.reservationLifetime * 1000) } else d).ctx = d.ctx :=
    fun d => by split <;> rfl
  rw [reservation_none_iff, reservation_none_iff, laneTaken_accounts hc]
  simp only [accountsTouched, restartReservation, List.forall_mem_map, hctx]

/-- A basket without its reservation (R154): a revision increase goes with one that it held. -/
def unheld (c : CtxNo) (s : State) : State :=
  if (s.reservation c).isSome then bumpRevision c (removeReservation c s) else s

theorem unheld_none {c : CtxNo} {s : State} (h : s.reservation c = none) : unheld c s = s := by
  simp [unheld, h]

theorem unheld_some {c : CtxNo} {s : State} {a : Attachment} (h : s.reservation c ≠ none)
    (ha : (s.ctx c).place = .attached a) :
    unheld c s = ((removeReservation c s).setCtx c (revised a (s.ctx c))).setLane a.lane (s.lane a.lane).overtaken := by
  rw [unheld, if_pos (Option.isSome_iff_ne_none.2 h)]
  exact bumpRevision_attached (s := removeReservation c s) ha

/-- What the release of the reservation leaves, besides the tables it is in. -/
theorem unheld_rest (c : CtxNo) (s : State) : unheld c s =
    { s with ctxs := (unheld c s).ctxs, lanes := (unheld c s).lanes, accounts := (unheld c s).accounts } := by
  unfold unheld
  split
  · apply State.ext <;> simp
  · rfl

theorem unheld_accounts (c : CtxNo) (s : State) : (unheld c s).accounts = s.accounts.map (withoutHold c) := by
  by_cases h : s.reservation c = none
  · rw [unheld_none h, withoutHold_absent h]
  · rw [unheld, if_pos (Option.isSome_iff_ne_none.2 h), bumpRevision_accounts, removeReservation_accounts]

/-! ### The basket parked (R153, R154) -/

/-- A context parked under a ticket, as `BasketParked` tells it. -/
def parkedContext (c : CtxNo) (ticket : Nat) (s : State) : Context :=
  { s.ctx c with
    place := .parked { ticket := ticket, since := s.now, expires := s.now + s.config.parkLifetime * 1000 }
    revision := if s.reservation c = none then (s.ctx c).revision else (s.ctx c).revision + 1
    quote := none, wanted := false }

section
variable {u : State} {l : LaneNo} {c : CtxNo} {a : Attachment}

theorem OnBasket.attachedLane (h : OnBasket u l c a) : a.lane = l := by
  obtain ⟨-, -, -, hlane⟩ := h
  exact hlane

theorem unheld_place (ha : (u.ctx c).place = .attached a) : ((unheld c u).ctx c).place = .attached a := by
  by_cases h : u.reservation c = none
  · rw [unheld_none h, ha]
  · rw [unheld_some h ha, ctx_congr (setLane_ctxs ..), ctx_setCtx_same, ← ha]; rfl

theorem parkReleased_eq (ha : (u.ctx c).place = .attached a) :
    parkReleased c u = releasePin a.bank (unheld c u) := by
  show releasePinOf c (unheld c u) = _
  rw [releasePinOf, unheld_place ha]

/-- What a basket gives back before it is parked does not matter to its ticket. -/
theorem parkReleased_ticket (c : CtxNo) (u : State) :
    nextTicket (parkReleased c u) 13 (parkReleased c u).parks.lastTicket = u.parkTicket := by
  have hparks : (parkReleased c u).parks = u.parks := by
    unfold parkReleased
    split <;> simp
  exact parkTicket_congr hparks

theorem parkBasket_answer (l : LaneNo) (c : CtxNo) (u : State) :
    (parkBasket l c u).2 = (u.parkTicket, u.reserved c) := by
  rw [← parkReleased_ticket c u]
  unfold parkBasket parkReleased
  cases u.reservation c <;> rfl

/-- The context parked is the same with the revision increase before it. -/
theorem unheld_parked (ha : (u.ctx c).place = .attached a) (n : Nat) :
    ((unheld c u).setCtx c { (unheld c u).ctx c with
      place := .parked { ticket := n, since := u.now, expires := u.after (u.config.parkLifetime * 1000) }
      quote := none, wanted := false }).ctxs = (u.setCtx c (parkedContext c n u)).ctxs := by
  by_cases h : u.reservation c = none
  · rw [unheld_none h, parkedContext, if_pos h]; rfl
  · rw [unheld_some h ha, parkedContext, if_neg h]
    simp [State.setCtx, State.ctx, get_set_same, revised, State.after]

/-- A revision increase leaves nothing on a lane that the basket then leaves. -/
theorem unheld_vacated (ha : (u.ctx c).place = .attached a) (hl : a.lane = l) :
    (clearLane l (unheld c u)).lanes = (u.setLane l (vacated (u.lane l))).lanes := by
  rw [clearLane_lanes]
  by_cases h : u.reservation c = none
  · rw [unheld_none h]
  · subst hl
    rw [unheld_some h ha, lane_setLane_same]
    simp [State.setLane, vacated, Lane.overtaken]

/-- The basket parked, as one write of each table it changes. -/
theorem parkBasket_eq (ha : (u.ctx c).place = .attached a) (hl : a.lane = l) : (parkBasket l c u).1 =
    { u with
      ctxs := (u.setCtx c (parkedContext c u.parkTicket u)).ctxs
      lanes := (u.setLane l (vacated (u.lane l))).lanes
      accounts := u.accounts.map (withoutHold c)
      banks := (releasePin a.bank (unheld c u)).banks, conds := (releasePin a.bank (unheld c u)).conds
      notices := (releasePin a.bank (unheld c u)).notices
      parks := { list := u.parks.list ++ [{ ticket := u.parkTicket, ctx := c }], lastTicket := u.parkTicket }
      sched := agedWithout u l } := by
  have hrest := unheld_rest c u
  rw [parkBasket_state, parkReleased_ticket, parkReleased_eq ha]
  apply State.ext
  case ctxs =>
    rw [clearLane_ctxs, ← unheld_parked ha]
    simp [parkUnder, State.setCtx, State.ctx, State.after, congrArg State.now hrest, congrArg State.config hrest]
  case lanes => rw [← unheld_vacated ha hl]; simp [clearLane, leaveWaiting, parkUnder, State.setLane, State.lane]
  case accounts => simp [parkUnder, unheld_accounts]
  case sched => rw [clearLane_sched]; simp [parkUnder, agedWithout, congrArg State.sched hrest]
  all_goals simp [parkUnder]
  all_goals rw [hrest]

/-- The bank, its condition and its notice once the basket has given its pin back (R53, R54). -/
theorem parkBasket_pinReleased (ha : (u.ctx c).place = .attached a) (hl : a.lane = l) :
    PinReleased u (parkBasket l c u).1 a.bank ∧ OtherConditionsKept u (parkBasket l c u).1 .bankDrained ∧
      (parkBasket l c u).1.notices = drainNotices u a.bank := by
  have hbanks : (unheld c u).banks = u.banks := by rw [unheld_rest]
  have hconds : (unheld c u).conds = u.conds := by rw [unheld_rest]
  have hnotices : (unheld c u).notices = u.notices := by rw [unheld_rest]
  rw [parkBasket_eq ha hl]
  refine ⟨?_, ⟨?_, fun d hd => ?_⟩, ?_⟩
  · exact (releasePin_releases a.bank (unheld c u)).congr hbanks (cond_congr hconds _) rfl rfl
  · exact (releasePin_mask ..).trans (by rw [hconds])
  · exact (releasePin_cond_ne a.bank (unheld c u) hd).trans (cond_congr hconds d)
  · exact (releasePin_notices ..).trans (drainNotices_congr hbanks hnotices (by rw [hconds]) (cond_congr hconds _) _)

end

theorem account_withoutHold {s t : State} {c : CtxNo} (h : t.accounts = s.accounts.map (withoutHold c)) (j : Nat) :
    t.account j = accountLeft s c none 0 j := by
  rw [accountLeft_kept (by simp)]
  unfold State.account
  rw [h, find?_map_id (g := withoutHold c) fun _ => rfl]

/-! ### PARK (R154) -/

/-- The fields of PARK's reply (R154). -/
def parkFields (c : CtxNo) (ticket points : Nat) (x : Context) : List Byte :=
  enc 1 ticket ++ [ctxByte c] ++ enc 2 x.incarnation.toNat ++ enc 2 x.revision.toNat ++ enc 4 points

theorem parkBody_eq (l : LaneNo) (c : CtxNo) (u : State) : parkBody l c u = ((parkBasket l c u).1,
    .reply .ok (parkFields c u.parkTicket (u.reserved c) ((parkBasket l c u).1.ctx c))) := by
  rw [parkBody, parkBasket_answer]; rfl

section
variable {s v : State} {r : Req} {l : LaneNo} {c : CtxNo} {a : Attachment}

/-- The timers that the take of PARK restarts do not matter to the context parked. -/
theorem laneTaken_parked {f : Frame} (hc : (s.lane l).ctx = some c) (n : Nat) :
    parkedContext c n (laneTaken f l s) = parkedContext c n s := by
  simp only [parkedContext, laneTaken_ctx, laneTaken_now, laneTaken_config, laneTaken_reservation_none hc]

/-- The tables the basket gives back to, after the take of PARK. -/
theorem parkBasket_tables (hb : OnBasket s l c a) (hv : v = (parkBasket l c (laneTaken (r.frame 0x11) l s)).1) :
    v.parks = { list := s.parks.list ++ [{ ticket := s.parkTicket, ctx := c }], lastTicket := s.parkTicket } ∧
      v.sched = agedWithout s l ∧ v.accounts = s.accounts.map (withoutHold c) := by
  obtain ⟨-, hc, hplace, hal⟩ := hb
  rw [parkBasket_eq (by rw [laneTaken_ctx, hplace]) hal, parkTicket_congr (laneTaken_parks ..)] at hv
  refine ⟨by rw [hv, laneTaken_parks], ?_, ?_⟩
  · rw [hv]; simp [agedWithout]
  · rw [hv]; dsimp only; rw [laneTaken_accounts hc, withoutHold_touched]

/-- The body of PARK writes its context and its lane, and the tables the basket gives back to. -/
theorem bodyWrote_park (hb : OnBasket s l c a) (hv : v = (parkBasket l c (laneTaken (r.frame 0x11) l s)).1) :
    BodyWrote s { s with parks := v.parks, banks := v.banks, conds := v.conds, notices := v.notices
                         sched := v.sched } v 0x11 r l c (parkedContext c s.parkTicket s) (vacated (s.lane l)) := by
  obtain ⟨hst, hc, hplace, hal⟩ := hb
  have hlane : (laneTaken (r.frame 0x11) l s).lane l = watched s l := by rw [laneTaken_lane_on hst, if_pos rfl]
  rw [parkBasket_eq (by rw [laneTaken_ctx, hplace]) hal, parkTicket_congr (laneTaken_parks ..), laneTaken_parked hc,
    hlane] at hv
  refine ⟨by rw [hv], by rw [hv]; rfl, by rw [hv], by rw [hv], by rw [hv], by rw [hv]; simp, ?_, rfl, rfl, rfl⟩
  apply State.ext <;> simp
  all_goals rw [hv]; simp

end

/-- Settles O31: the parked state is one write of each table, and the reply is that of a lane without a basket. -/
theorem parkKeepsTheBasketUnderATicket : Obligations.ParkKeepsTheBasketUnderATicket := by
  intro s r l c a ht hb hp hsound
  have he : exec (.park r) s = _ := basketRequest_takes ht hb (len := 0) (by rw [hp]; rfl) parkBody
  have hagree : BasketsAgree s := (basketsSound_iff s).1 hsound
  rw [parkBody_eq, parkTicket_congr (laneTaken_parks ..), laneTaken_reserved_points hb.laneCtx] at he
  obtain ⟨hpin, ⟨hmask, hcond⟩, hnotices⟩ := parkBasket_pinReleased (u := laneTaken (r.frame 0x11) l s)
    (by rw [laneTaken_ctx, hb.place]) hb.attachedLane
  generalize hv : (parkBasket l c (laneTaken (r.frame 0x11) l s)).1 = v at *
  have hw := bodyWrote_park hb hv.symm
  obtain ⟨hparks, hsched, hacc⟩ := parkBasket_tables hb hv.symm
  obtain ⟨t, ht', ha, hx, hy, hco, hlo, hta, hf⟩ := hw.answered (rev := 0)
    (by simp [State.laneRevision, hw.lane_same, vacated]) .ok (parkFields c s.parkTicket (s.reserved c) (v.ctx c))
  have htp : t.parks = v.parks := by rw [hf.1]
  have htb : t.banks = v.banks := by rw [hf.1]
  have htd : t.conds = v.conds := by rw [hf.1]
  have htn : t.notices = v.notices := by rw [hf.1]
  have hts : t.sched = v.sched := by rw [hf.1]
  have hbanks : (laneTaken (r.frame 0x11) l s).banks = s.banks := laneTaken_banks ..
  have hconds : (laneTaken (r.frame 0x11) l s).conds = s.conds := laneTaken_conds ..
  refine ⟨t, s.parkTicket, he.trans ht', ⟨hagree.parkTicket_chosen, hx, hco, htp.trans hparks, hy, hlo, ?_,
    hts.trans hsched, account_withoutHold (hta.trans hacc)⟩, ?_, ⟨?_, fun d hd => ?_⟩, ?_, ?_⟩
  · exact hpin.congr hbanks (cond_congr hconds _) htb htd
  · rw [hw.ctx_same] at ha; rw [hx]; exact ha
  · rw [htd, hmask, hconds]
  · rw [cond_congr htd, hcond d hd, cond_congr hconds]
  · rw [htn, hnotices, drainNotices_congr hbanks (laneTaken_notices ..) (by rw [hconds]) (cond_congr hconds _)]
  · rw [htp, htb, htd, htn, hts]; exact hf

end Sys2Proof.Machine

/-! The slots of the main queue (R168, R169) in the midst of a step: how many are held, what an operation that touches
neither the queue nor the lanes in QUOTING keeps of them, and what a slot used, a frame placed, a lane that changes its
state and the service of free slots do to them. -/

namespace Sys2Proof.Machine

/-! ### The slots held -/

/-- The slots reserved for the QUOTE of a lane: one in QUOTING (R142, R168). -/
def Lane.quoteSlots (x : Lane) : Nat := if x.state = .quoting then 1 else 0

/-- The law of the slots in the midst of a step: beside those of the lanes in QUOTING, `n` slots are reserved for takes
not yet answered (R168). -/
structure SlotsHeld (n : Nat) (s : State) : Prop where
  within : s.occupied + s.mainQ.reserved + s.mainQ.served.length ≤ 24
  reserved : s.mainQ.reserved = (quotingLanes s).length + n
  timers : IdleTimersPlaced s
  streams : StreamsPlaced s

theorem slotsWithin_iff (s : State) : SlotsWithin s ↔ SlotsHeld 0 s :=
  ⟨fun ⟨hw, hr, ht, hs⟩ => ⟨hw, hr, ht, hs⟩, fun h => ⟨h.within, h.reserved, h.timers, h.streams⟩⟩

/-- The lanes in QUOTING, one lane counted apart. -/
theorem quotingLanes_length (s : State) (l : LaneNo) : (quotingLanes s).length =
    (s.lane l).quoteSlots + ((allLanes.erase l).filter fun m => (s.lane m).state == .quoting).length := by
  have hl : l ∈ allLanes := by revert l; decide
  have hp := ((List.perm_cons_erase hl).filter fun m => (s.lane m).state == .quoting).length_eq
  unfold quotingLanes Lane.quoteSlots
  rw [hp, List.filter_cons]
  by_cases h : (s.lane l).state = .quoting <;> simp [h, Nat.add_comm]

/-- A change of one lane changes the number of lanes in QUOTING by that lane. -/
theorem quotingLanes_change {s t : State} {l : LaneNo} (h : ∀ m, m ≠ l → t.lane m = s.lane m) :
    (quotingLanes t).length + (s.lane l).quoteSlots = (quotingLanes s).length + (t.lane l).quoteSlots := by
  have ho : (allLanes.erase l).filter (fun m => (t.lane m).state == .quoting) =
      (allLanes.erase l).filter fun m => (s.lane m).state == .quoting := by
    refine List.filter_congr fun m hm => ?_
    have hnd : allLanes.Nodup := by decide
    rw [h m (hnd.mem_erase_iff.1 hm).1]
  rw [quotingLanes_length s l, quotingLanes_length t l, ho]
  omega

theorem occupied_congr {s t : State} (hm : t.mainQ.frames.length = s.mainQ.frames.length)
    (hx : t.link.tx = s.link.tx) : t.occupied = s.occupied := by
  unfold State.occupied
  rw [hm, hx]

/-- A lane that is not SETTLING has no stream (R148). -/
theorem SlotsHeld.no_stream {n : Nat} {s : State} {l : LaneNo} (h : SlotsHeld n s)
    (hl : (s.lane l).state ≠ .settling) : s.stream l = none :=
  Classical.byContradiction fun hs => hl (h.streams l hs)

/-! ### Operations that leave the slots alone -/

/-- An operation that leaves alone the main queue, the frame in transmission and which lanes are QUOTING. -/
structure SlotsKept (s t : State) : Prop where
  mainQ : t.mainQ = s.mainQ
  tx : t.link.tx = s.link.tx
  quoting : ∀ l, (t.lane l).state = .quoting ↔ (s.lane l).state = .quoting

theorem SlotsKept.refl (s : State) : SlotsKept s s := ⟨rfl, rfl, fun _ => .rfl⟩

theorem SlotsKept.trans {s t u : State} (h : SlotsKept s t) (h' : SlotsKept t u) : SlotsKept s u :=
  ⟨h'.mainQ.trans h.mainQ, h'.tx.trans h.tx, fun l => (h'.quoting l).trans (h.quoting l)⟩

/-- An operation that leaves lanes, main queue and the frame in transmission alone. -/
theorem SlotsKept.of_tables {s t : State} (hl : t.lanes = s.lanes) (hm : t.mainQ = s.mainQ)
    (hx : t.link.tx = s.link.tx) : SlotsKept s t :=
  ⟨hm, hx, fun l => by rw [lane_congr hl]⟩

/-- An operation that leaves the slots alone and moves no basket keeps their law. -/
theorem SlotsHeld.kept {n : Nat} {s t : State} (h : SlotsHeld n s) (hk : SlotsKept s t) (hb : BasketsKept s t) :
    SlotsHeld n t := by
  have hq : quotingLanes t = quotingLanes s := by
    refine List.filter_congr fun l _ => ?_
    rw [Bool.eq_iff_iff, beq_iff_eq, beq_iff_eq]
    exact hk.quoting l
  refine ⟨?_, ?_, fun l => (hb.lane l).timer (h.timers l), fun l hst => ?_⟩
  · rw [occupied_congr (by rw [hk.mainQ]) hk.tx, hk.mainQ]; exact h.within
  · rw [hk.mainQ, hq]; exact h.reserved
  · refine (hb.lane l).settling.2 (h.streams l fun hs => hst ?_)
    have := hb.stream l
    simpa [State.streamCtx, hs] using this

/-- A change that touches no lane and no stream, and leaves at most as many slots occupied. -/
theorem SlotsHeld.of_counts {n : Nat} {s t : State} (h : SlotsHeld n s) (hl : t.lanes = s.lanes)
    (hs : t.streams = s.streams) (ho : t.occupied ≤ s.occupied) (hr : t.mainQ.reserved = s.mainQ.reserved)
    (hv : t.mainQ.served = s.mainQ.served) : SlotsHeld n t := by
  have hw := h.within
  refine ⟨by rw [hr, hv]; omega, ?_, fun l => ?_, fun l => ?_⟩
  · unfold quotingLanes
    simp only [hr, lane_congr hl]
    exact h.reserved
  · rw [lane_congr hl]; exact h.timers l
  · rw [stream_congr hs, lane_congr hl]; exact h.streams l

/-- The law is about lanes, streams, the main queue and the frame in transmission only. -/
theorem SlotsHeld.of_tables {n : Nat} {s t : State} (h : SlotsHeld n s) (hl : t.lanes = s.lanes)
    (hs : t.streams = s.streams) (hm : t.mainQ = s.mainQ) (hx : t.link.tx = s.link.tx) : SlotsHeld n t :=
  h.of_counts hl hs (Nat.le_of_eq (occupied_congr (by rw [hm]) hx)) (by rw [hm]) (by rw [hm])

/-- A lane that changes its state: its slot for a QUOTE is taken from the takes not yet answered, or given to them. -/
theorem SlotsHeld.laneChange {n k : Nat} {s t : State} {l : LaneNo} (h : SlotsHeld n s) (hm : t.mainQ = s.mainQ)
    (hx : t.link.tx = s.link.tx) (ho : ∀ m, m ≠ l → t.lane m = s.lane m)
    (hn : (s.lane l).quoteSlots + n = (t.lane l).quoteSlots + k)
    (hi : (t.lane l).idleTimer ≠ none → (t.lane l).mayIdle) (hso : ∀ m, m ≠ l → t.stream m = s.stream m)
    (hs : t.stream l ≠ none → (t.lane l).state = .settling) : SlotsHeld k t := by
  refine ⟨?_, ?_, fun m => ?_, fun m => ?_⟩
  · rw [occupied_congr (by rw [hm]) hx, hm]; exact h.within
  · have hc := quotingLanes_change ho
    have hr := h.reserved
    rw [hm]
    omega
  · by_cases e : m = l
    · subst e; exact hi
    · rw [ho m e]; exact h.timers m
  · by_cases e : m = l
    · subst e; exact hs
    · rw [hso m e, ho m e]; exact h.streams m

/-- The write of a lane that settles nothing. -/
theorem SlotsHeld.setLane {n k : Nat} {s : State} {l : LaneNo} {x : Lane} (h : SlotsHeld n s)
    (hl : (s.lane l).state ≠ .settling) (hn : (s.lane l).quoteSlots + n = x.quoteSlots + k)
    (hi : x.idleTimer ≠ none → x.mayIdle) : SlotsHeld k (s.setLane l x) := by
  refine h.laneChange (l := l) rfl rfl (fun m hm => lane_setLane_ne s x hm) (by simpa using hn) (by simpa using hi)
    (fun m _ => rfl) fun hs => absurd (h.no_stream hl) hs

theorem Lane.quoteSlots_of {x : Lane} (h : x.state ≠ .quoting) : x.quoteSlots = 0 := if_neg h

theorem Lane.mayIdle_quoteSlots {x : Lane} (h : x.mayIdle) : x.quoteSlots = 0 :=
  Lane.quoteSlots_of (by rcases h with h | h <;> rw [h] <;> decide)

theorem Lane.mayIdle_not_settling {x : Lane} (h : x.mayIdle) : x.state ≠ .settling := by
  rcases h with h | h <;> rw [h] <;> decide

/-! ### Slots used and frames placed -/

theorem placeReserved_occupied (f : Frame) (s : State) : (placeReserved f s).occupied = s.occupied + 1 := by
  simp only [State.occupied, placeReserved_frames, placeReserved_link, List.length_append, List.length_singleton]
  omega

theorem placeFrame_occupied (f : Frame) (s : State) : (placeFrame f s).occupied = s.occupied + 1 := by
  simp only [State.occupied, placeFrame_frames, placeFrame_link, List.length_append, List.length_singleton]
  omega

/-- The reply of a take stands in the slot reserved for it. -/
theorem SlotsHeld.placeReserved {n : Nat} {s : State} (h : SlotsHeld (n + 1) s) (f : Frame) :
    SlotsHeld n (placeReserved f s) := by
  obtain ⟨hw, hr, ht, hs⟩ := h
  refine ⟨?_, ?_, ht, hs⟩
  · rw [placeReserved_occupied, placeReserved_reserved]
    show _ + s.mainQ.served.length ≤ 24
    omega
  · rw [placeReserved_reserved]
    show _ = (quotingLanes s).length + n
    omega

/-- A claim that may use a slot leaves room for one frame when it uses it. -/
theorem SlotsHeld.useSlot {n : Nat} {s : State} {c : Claim} (h : SlotsHeld n s) (hc : s.slotFor c = true) :
    SlotsHeld n (useSlot c s) ∧
      s.occupied + s.mainQ.reserved + (useSlot c s).mainQ.served.length < 24 := by
  have hle : (s.mainQ.served.erase c).length ≤ s.mainQ.served.length := List.length_erase_le
  have hroom : s.occupied + s.mainQ.reserved + (s.mainQ.served.erase c).length < 24 := by
    have hw := h.within
    by_cases hm : c ∈ s.mainQ.served
    · have hlen := List.length_erase_of_mem hm
      have hpos := List.length_pos_of_mem hm
      omega
    · have hf : 0 < s.freeSlots := by simpa [State.slotFor, hm] using hc
      unfold State.freeSlots at hf
      omega
  exact ⟨⟨Nat.le_of_lt hroom, h.reserved, h.timers, h.streams⟩, hroom⟩

/-- A take reserves the slot it uses (R168). -/
theorem SlotsHeld.reserve {n : Nat} {s : State} {c : Claim} (h : SlotsHeld n s) (hc : s.slotFor c = true) :
    SlotsHeld (n + 1) (reserveSlot (Machine.useSlot c s)) := by
  obtain ⟨⟨_, hr, ht, hs⟩, hroom⟩ := h.useSlot hc
  refine ⟨?_, ?_, ht, hs⟩
  · rw [reserveSlot_reserved, useSlot_reserved]
    show s.occupied + _ + (Machine.useSlot c s).mainQ.served.length ≤ 24
    omega
  · rw [reserveSlot_reserved, hr]
    rfl

/-- A frame is placed where there is room for it (R168). -/
theorem SlotsHeld.placeFrame {n : Nat} {s : State} (h : SlotsHeld n s)
    (hroom : s.occupied + s.mainQ.reserved + s.mainQ.served.length < 24) (f : Frame) :
    SlotsHeld n (placeFrame f s) := by
  refine ⟨?_, h.reserved, h.timers, h.streams⟩
  rw [placeFrame_occupied, placeFrame_reserved]
  show _ + s.mainQ.served.length ≤ 24
  omega

/-- A claim uses its slot for a frame (R169). -/
theorem SlotsHeld.usePlace {n : Nat} {s : State} {c : Claim} (h : SlotsHeld n s) (hc : s.slotFor c = true) (f : Frame) :
    SlotsHeld n (Machine.placeFrame f (Machine.useSlot c s)) := by
  obtain ⟨hu, hroom⟩ := h.useSlot hc
  exact hu.placeFrame hroom f

/-- The claims served at the end of a step take free slots only (R169). -/
theorem SlotsHeld.settleClaims {n : Nat} {s : State} (h : SlotsHeld n s) : SlotsHeld n (settleClaims s) := by
  have hserved := (settleClaims_served s).1
  have hocc : (Machine.settleClaims s).occupied = s.occupied := occupied_congr (by simp) (by simp)
  have hlen := congrArg List.length hserved
  have hkept := List.length_filter_le (needsSlot (Machine.settleClaims s)) s.mainQ.served
  have hw := h.within
  rw [List.length_append, List.length_take, hocc, settleClaims_reserved] at hlen
  refine ⟨?_, ?_, fun l => ?_, fun l => ?_⟩
  · rw [hocc, settleClaims_reserved]
    omega
  · unfold quotingLanes
    simp only [settleClaims_reserved, lane_congr (settleClaims_lanes s)]
    exact h.reserved
  · rw [lane_congr (settleClaims_lanes s)]; exact h.timers l
  · rw [stream_congr (settleClaims_streams s), lane_congr (settleClaims_lanes s)]; exact h.streams l

end Sys2Proof.Machine

/-! What the bodies of the requests do to the slots of the main queue (R5, R168): all but TOTAL and FINALIZE answer with
a reply and leave the slots alone, and of the bulk requests those that refuse leave the whole state (R184). -/

namespace Sys2Proof.Machine

/-! ### Shared operations -/

theorem setCtx_slots (s : State) (c : CtxNo) (x : Context) : SlotsKept s (s.setCtx c x) := .of_tables rfl rfl rfl

/-- A write of a lane record that is QUOTING as before. -/
theorem setLane_slots {s : State} {l : LaneNo} {x : Lane} (h : x.state = .quoting ↔ (s.lane l).state = .quoting) :
    SlotsKept s (s.setLane l x) := by
  refine ⟨rfl, rfl, fun m => ?_⟩
  rw [lane_setLane]
  split
  · next e => exact e ▸ h
  · exact .rfl

/-- A revision increase takes a lane from TOTALLED to OPEN at most (R7). -/
theorem overtaken_quoting (x : Lane) : x.overtaken.state = .quoting ↔ x.state = .quoting := by
  unfold Lane.overtaken
  by_cases h : x.state = .totalled <;> simp [h]

theorem bumpRevision_slots (c : CtxNo) (s : State) : SlotsKept s (bumpRevision c s) := by
  have hc : SlotsKept s (s.setCtx c (s.ctx c).bumped) := setCtx_slots ..
  unfold bumpRevision
  split
  · exact hc.trans (setLane_slots (overtaken_quoting _))
  · exact hc

theorem bumpAll_slots (cs : List CtxNo) (s : State) : SlotsKept s (cs.foldl (fun s c => bumpRevision c s) s) := by
  induction cs generalizing s with
  | nil => exact .refl _
  | cons c cs ih => exact (bumpRevision_slots c s).trans (ih _)

theorem edit_slots (s : State) (c : CtxNo) (x : Context) : SlotsKept s (bumpRevision c (s.setCtx c x)) :=
  (setCtx_slots ..).trans (bumpRevision_slots ..)

theorem raise_slots (c : CondClass) (u : Detail → Detail) (s : State) : SlotsKept s (raise c u s) :=
  .of_tables (by simp) (by simp) (by simp)

theorem startIdle_slots (n : Nat) (l : LaneNo) (s : State) : SlotsKept s (startIdle n l s) := by
  unfold startIdle
  split <;> exact setLane_slots .rfl

theorem touchIdle_slots (l : LaneNo) (s : State) : SlotsKept s (touchIdle l s) := by
  unfold touchIdle
  split
  · exact startIdle_slots ..
  · exact startIdle_slots ..
  all_goals exact .refl _

theorem leaveWaiting_slots (l : LaneNo) (s : State) : SlotsKept s (leaveWaiting l s) :=
  (setLane_slots (x := { s.lane l with passOver := 0 }) .rfl).trans (.of_tables rfl rfl rfl)

theorem cutRule_slots (id : Nat) (s : State) : SlotsKept s (cutRule id s).1 := by
  unfold cutRule
  split
  · exact .refl _
  · dsimp only
    split
    · exact .refl _
    · refine .trans ?_ (raise_slots ..)
      refine .trans ?_ (bumpAll_slots _ _)
      exact .of_tables rfl rfl rfl

theorem removeReservation_slots (c : CtxNo) (s : State) : SlotsKept s (removeReservation c s) :=
  .of_tables rfl rfl rfl

/-! ### Request bodies that move no basket -/

/-- A body that answers with a reply and leaves the slots alone. -/
inductive Replies (u : State) : State × Answer → Prop where
  | reply {t : State} (h : SlotsKept u t) (o : OutcomeCode) (fields : List Byte) : Replies u (t, .reply o fields)

/-- A body that refuses and leaves the state. -/
theorem Replies.refusal (u : State) (o : OutcomeCode) (fields : List Byte) : Replies u (u, .reply o fields) :=
  .reply (.refl u) o fields

theorem Replies.badField (u : State) (n off : Nat) : Replies u (u, badField n off) := .refusal ..

theorem Replies.of_refuses {u : State} {a : Answer} (h : a.refuses) : Replies u (u, a) := by
  obtain ⟨o, fields, rfl, -⟩ := h
  exact .refusal ..

theorem onLine_replies {p : List Byte} {c : CtxNo} {body : Line → State → State × Answer} {u : State}
    (h : ∀ ln, Replies u (body ln u)) : Replies u (onLine p c body u) := by
  unfold onLine
  split
  · exact .badField ..
  · split
    · exact .refusal ..
    · exact h _

theorem changeLines_slots (c : CtxNo) (ls : List Line) (s : State) : SlotsKept s (changeLines c ls s) := edit_slots ..

theorem addLineBody_replies (p : List Byte) (c : CtxNo) (u : State) : Replies u (addLineBody p c u) := by
  unfold addLineBody
  split
  · exact .badField ..
  · dsimp only
    split
    · exact .refusal ..
    · split
      · exact .refusal ..
      · exact .reply (edit_slots ..) ..

theorem setQtyBody_replies (p : List Byte) (c : CtxNo) (ln : Line) (u : State) :
    Replies u (setQtyBody p c ln u) := by
  unfold setQtyBody
  dsimp only
  split
  · split
    · exact .refusal ..
    · split
      · exact .refusal ..
      · exact .reply (changeLines_slots ..) ..
  · exact .badField ..

theorem overrideBody_replies (p : List Byte) (c : CtxNo) (ln : Line) (u : State) :
    Replies u (overrideBody p c ln u) := by
  unfold overrideBody
  split
  · exact .badField ..
  · dsimp only
    split
    · exact .refusal ..
    · split
      · exact .refusal ..
      · split
        · exact .refusal ..
        · split
          · exact .refusal ..
          · split
            · exact .refusal ..
            · exact .reply (changeLines_slots ..) ..

theorem makeClaim_slots {c : CtxNo} {serial : Nat} {s u : State} {e : Option Nat}
    (h : makeClaim c serial s = some (u, e)) : SlotsKept s u := by
  unfold makeClaim at h
  dsimp only at h
  split at h
  · cases h; exact .refl _
  · split at h
    · cases h; exact .of_tables rfl rfl rfl
    · split at h
      · cases h; exact .of_tables rfl rfl rfl
      · cases h

theorem claimCoupon_replies (k : Coupon) (c : CtxNo) (u : State) : Replies u (claimCoupon k c u) := by
  unfold claimCoupon
  split
  · next h => exact .of_refuses (lookupRefusal_refuses h)
  · split
    · exact .reply (raise_slots ..) ..
    · next h => exact .reply ((makeClaim_slots h).trans (edit_slots ..)) ..

theorem presentCouponBody_replies (p : List Byte) (c : CtxNo) (u : State) : Replies u (presentCouponBody p c u) := by
  unfold presentCouponBody
  split
  · exact .badField ..
  · dsimp only
    split
    · next h => exact .of_refuses (listRefusal_refuses h)
    · split
      · next h =>
        obtain ⟨_, -, h⟩ := Option.bind_eq_some_iff.1 h
        exact .of_refuses (offerRefusal_refuses h)
      · exact claimCoupon_replies ..

theorem releaseSerial_slots (c : CtxNo) (n : Nat) (s : State) : SlotsKept s (releaseSerial c n s) := by
  unfold releaseSerial
  split
  · exact .refl _
  · exact .of_tables (by simp) (by simp) (by simp)

theorem withdrawCouponBody_replies (p : List Byte) (c : CtxNo) (u : State) :
    Replies u (withdrawCouponBody p c u) := by
  unfold withdrawCouponBody
  dsimp only
  split
  · exact .badField ..
  · exact .reply ((releaseSerial_slots ..).trans (edit_slots ..)) ..

theorem dropOther_slots (c : CtxNo) (id : Nat) (s : State) : SlotsKept s (dropOther c id s) := by
  unfold dropOther
  split
  · split
    · exact .refl _
    · exact .of_tables rfl rfl rfl
  · exact .refl _

theorem giveBalance_slots (c : CtxNo) (id balance : Nat) (s : State) : SlotsKept s (giveBalance c id balance s).1 := by
  unfold giveBalance
  split
  · exact .of_tables rfl rfl rfl
  · refine .trans ?_ (cutRule_slots id _)
    exact .of_tables rfl rfl rfl

theorem attachBody_replies (p : List Byte) (c : CtxNo) (u : State) : Replies u (attachBody p c u) := by
  unfold attachBody
  split
  · exact .badField ..
  · exact .reply ((removeReservation_slots ..).trans ((dropOther_slots ..).trans ((giveBalance_slots ..).trans
      (edit_slots ..)))) ..

theorem detachBody_replies (c : CtxNo) (u : State) : Replies u (detachBody c u) := by
  unfold detachBody
  split
  · exact .refusal ..
  · next a _ =>
    have hd : SlotsKept u (dropReference a.id (removeReservation c u)) := .of_tables rfl rfl rfl
    exact .reply (hd.trans (edit_slots ..)) ..

theorem redeemBody_replies (p : List Byte) (c : CtxNo) (u : State) : Replies u (redeemBody p c u) := by
  unfold redeemBody
  dsimp only
  split
  · split
    · exact .refusal ..
    · next a _ =>
      split
      · exact .refusal ..
      · split
        · exact .refusal ..
        · have ha : SlotsKept u (addReservation c a.id (field p 0 4) (removeReservation c u)) := .of_tables rfl rfl rfl
          exact .reply (ha.trans (bumpRevision_slots ..)) ..
  · exact .badField ..

theorem cancelRedeemBody_replies (c : CtxNo) (u : State) : Replies u (cancelRedeemBody c u) := by
  unfold cancelRedeemBody
  split
  · exact .refusal ..
  · exact .reply ((removeReservation_slots ..).trans (bumpRevision_slots ..)) ..

theorem setTrackingBody_replies (p : List Byte) (l : LaneNo) (c : CtxNo) (u : State) :
    Replies u (setTrackingBody p l c u) := by
  unfold setTrackingBody
  split
  · exact .badField ..
  · next m _ =>
    have hl : SlotsKept u ((u.setCtx c ((u.ctx c).withTracking m)).setLane l
        { (u.setCtx c ((u.ctx c).withTracking m)).lane l with tracking := m }) :=
      (setCtx_slots ..).trans (setLane_slots .rfl)
    dsimp only
    split
    · exact .reply (hl.trans (setCtx_slots ..)) ..
    · refine .reply ?_ _ _
      refine .trans ?_ (leaveWaiting_slots ..)
      refine .trans ?_ (setLane_slots .rfl)
      exact hl.trans (setCtx_slots ..)

theorem queryBasketBody_replies (p : List Byte) (c : CtxNo) (u : State) : Replies u (queryBasketBody p c u) := by
  unfold queryBasketBody
  dsimp only
  split
  · exact .refusal ..
  · exact .badField ..

/-! ### Device-level requests -/

/-- What a body of a bulk request may do to the state `u` it begins with: be carried out with the outcome OK, the slots
left alone, or refuse and leave the state (R184). -/
inductive BulkAnswers (u : State) : State × Answer → Prop where
  | accepted {t : State} (h : SlotsKept u t) (fields : List Byte) : BulkAnswers u (t, .reply .ok fields)
  | refused (o : OutcomeCode) (fields : List Byte) : BulkAnswers u (u, .reply o fields)

theorem BulkAnswers.replies {u : State} {x : State × Answer} (h : BulkAnswers u x) : Replies u x := by
  cases h with
  | accepted h fields => exact .reply h ..
  | refused o fields => exact .refusal ..

theorem BulkAnswers.badField (u : State) (n off : Nat) : BulkAnswers u (u, badField n off) := .refused ..

theorem BulkAnswers.of_reply {u : State} {a : Answer} (h : ∃ o fields, a = .reply o fields) :
    BulkAnswers u (u, a) := by
  obtain ⟨o, fields, rfl⟩ := h
  exact .refused ..

theorem withLength_answers {len : Nat} {r : Req} {body : State → State × Answer} {u : State}
    (h : BulkAnswers u (body u)) : BulkAnswers u (withLength len r body u) := by
  unfold withLength
  split
  · exact h
  · exact .badField ..

theorem onStaging_answers {body : BankNo → State → State × Answer} {u : State}
    (h : ∀ b, BulkAnswers u (body b u)) : BulkAnswers u (onStaging body u) := by
  unfold onStaging
  split
  · exact h _
  · exact .refused ..

theorem setBank_slots (s : State) (b : BankNo) (x : Bank) : SlotsKept s (s.setBank b x) := .of_tables rfl rfl rfl

theorem updateServing_slots (s : State) : SlotsKept s (updateServing s) := by
  unfold updateServing
  split
  · exact .of_tables rfl rfl rfl
  · exact .refl _

theorem bankBeginBody_answers (p : List Byte) (u : State) : BulkAnswers u (bankBeginBody p u) := by
  unfold bankBeginBody
  dsimp only
  split
  · exact .badField ..
  · split
    · exact .accepted (setBank_slots ..) _
    · refine .of_reply ?_
      unfold bankBusy
      split <;> exact ⟨_, _, rfl⟩

/-- An entry of OFFER_PUT is refused with a reply. -/
theorem offersRefusal_reply {seen : List Nat} {i : Nat} {es : List (List Byte)} {a : Answer}
    (h : offersRefusal seen i es = some a) : ∃ o fields, a = .reply o fields := by
  induction es generalizing seen i with
  | nil => cases h
  | cons e es ih =>
    unfold offersRefusal at h
    split at h
    · cases h; exact ⟨_, _, rfl⟩
    · split at h
      · cases h; exact ⟨_, _, rfl⟩
      · exact ih h

theorem offerPutBody_answers (p : List Byte) (b : BankNo) (u : State) : BulkAnswers u (offerPutBody p b u) := by
  unfold offerPutBody
  dsimp only
  split
  · split
    · next h => exact .of_reply (offersRefusal_reply h)
    · split
      · exact .refused ..
      · exact .accepted (setBank_slots ..) _
  · exact .badField ..

theorem offersCloseBody_answers (p : List Byte) (b : BankNo) (u : State) :
    BulkAnswers u (offersCloseBody p b u) := by
  unfold offersCloseBody
  dsimp only
  split
  · exact .accepted (setBank_slots ..) _
  · exact .refused ..

theorem schedulePutBody_answers (p : List Byte) (b : BankNo) (u : State) :
    BulkAnswers u (schedulePutBody p b u) := by
  unfold schedulePutBody
  split
  · exact .badField ..
  · exact .accepted (setBank_slots ..) _

theorem commitBank_slots (b : BankNo) (s : State) : SlotsKept s (commitBank b s) := by
  have hr : SlotsKept s (replaceCurrent s) := by
    unfold replaceCurrent
    split
    · exact setBank_slots ..
    · exact .refl _
  exact hr.trans ((setBank_slots ..).trans (updateServing_slots _))

theorem bankCommitBody_answers (u : State) : BulkAnswers u (bankCommitBody u) := by
  unfold bankCommitBody
  split
  · refine .of_reply ?_
    unfold notReady
    split <;> exact ⟨_, _, rfl⟩
  · split
    · exact .refused ..
    · exact .accepted (commitBank_slots ..) _

/-- An entry of AUTHORITY_LOAD is refused with a reply. -/
theorem supervisorsRefusal_reply {seen : List Nat} {i : Nat} {es : List (List Byte)} {a : Answer}
    (h : supervisorsRefusal seen i es = some a) : ∃ o fields, a = .reply o fields := by
  induction es generalizing seen i with
  | nil => cases h
  | cons e es ih =>
    unfold supervisorsRefusal at h
    split at h
    · cases h; exact ⟨_, _, rfl⟩
    · split at h
      · cases h; exact ⟨_, _, rfl⟩
      · exact ih h

theorem authorityLoadBody_answers (p : List Byte) (u : State) : BulkAnswers u (authorityLoadBody p u) := by
  unfold authorityLoadBody
  dsimp only
  split
  · split
    · next h => exact .of_reply (supervisorsRefusal_reply h)
    · split
      · exact .refused ..
      · refine .accepted ?_ _
        exact .of_tables rfl rfl rfl
  · exact .badField ..

theorem authorityRemoveBody_answers (p : List Byte) (u : State) : BulkAnswers u (authorityRemoveBody p u) := by
  unfold authorityRemoveBody
  dsimp only
  split
  · exact .badField ..
  · split
    · refine .accepted ?_ _
      exact .of_tables rfl rfl rfl
    · exact .refused ..

theorem accountBalanceBody_answers (p : List Byte) (u : State) : BulkAnswers u (accountBalanceBody p u) := by
  unfold accountBalanceBody
  dsimp only
  split
  · exact .badField ..
  · split
    · exact .refused ..
    · refine .accepted (.trans ?_ (cutRule_slots ..)) _
      exact .of_tables rfl rfl rfl

theorem queryAccountBody_answers (p : List Byte) (u : State) : BulkAnswers u (queryAccountBody p u) := by
  unfold queryAccountBody
  dsimp only
  split
  · split
    · exact .refused ..
    · exact .refused ..
  · exact .badField ..

theorem queryClaimBody_answers (p : List Byte) (u : State) : BulkAnswers u (queryClaimBody p u) := by
  unfold queryClaimBody
  dsimp only
  split
  · exact .badField ..
  · exact .refused ..

/-- With no basket on any lane, no lane is QUOTING before a new configuration or under it (R2). -/
theorem configureLanes_slots {s : State} (h : ∀ l, (s.lane l).state.holdsBasket = false) :
    SlotsKept s (configureLanes s) := by
  refine ⟨rfl, rfl, fun l => ?_⟩
  have hold : (s.lane l).state ≠ .quoting := fun e => by have := h l; rw [e] at this; cases this
  rw [configureLanes_lane]
  refine iff_of_false ?_ hold
  unfold Lane.configured
  cases s.laneEnabled l <;> simp

theorem configureBody_answers (p : List Byte) (u : State) : BulkAnswers u (configureBody p u) := by
  unfold configureBody
  split
  · next hb =>
    split
    · exact .badField ..
    · refine .accepted ?_ _
      refine .trans ?_ (configureLanes_slots fun l => basketLanes_empty hb l)
      exact .of_tables rfl rfl rfl
  · exact .refused ..

theorem dayOpenBody_answers (p : List Byte) (u : State) : BulkAnswers u (dayOpenBody p u) := by
  unfold dayOpenBody
  dsimp only
  split
  · split
    · refine .accepted (.trans ?_ (updateServing_slots _)) _
      exact .of_tables (by simp) (by simp) (by simp)
    · exact .badField ..
  · exact .refused ..

/-- CLEAR_CONDITIONS touches the link's last fault kind and no lane (R178). -/
theorem clearClass_slots (c : CondClass) (s : State) : SlotsKept s (clearClass c s) := by
  cases c <;> exact ⟨rfl, rfl, fun _ => .rfl⟩

theorem clearClasses_slots (set : Nat) (s : State) : SlotsKept s (clearClasses set s) := by
  unfold clearClasses
  generalize allClasses = cs
  induction cs generalizing s with
  | nil => exact .refl _
  | cons c cs ih =>
    refine .trans ?_ (ih _)
    dsimp only
    split
    · exact clearClass_slots c s
    · exact .refl _

theorem clearConditionsBody_answers (p : List Byte) (u : State) : BulkAnswers u (clearConditionsBody p u) := by
  unfold clearConditionsBody
  split
  · exact .accepted (clearClasses_slots ..) _
  · exact .badField ..

theorem setMaskBody_answers (p : List Byte) (u : State) : BulkAnswers u (setMaskBody p u) := by
  unfold setMaskBody
  split
  · exact .accepted (.of_tables (by simp) (by simp) (by simp)) _
  · exact .badField ..

theorem statusBody_answers (p : List Byte) (u : State) : BulkAnswers u (statusBody p u) := by
  unfold statusBody
  dsimp only
  split
  · exact .refused ..
  · split
    · exact .refused ..
    · split
      · exact .refused ..
      · exact .badField ..

end Sys2Proof.Machine

/-! Every command keeps the slots of the main queue (R168): the requests with their takes and replies, the steps of the
device and the resets, and the step by the command at its front. A refused bulk request changes nothing (R184). -/

namespace Sys2Proof.Machine

/-! ### Requests -/

/-- Every state a step answers with keeps the law of the slots. -/
def AnswersWithin (o : Out) : Prop := ∀ t, o = .next t → SlotsHeld 0 t

theorem AnswersWithin.next {t : State} (h : SlotsHeld 0 t) : AnswersWithin (.next t) := by
  rintro _ ⟨⟩; exact h

theorem whenLive_within {f : State → State} {s : State} (h : SlotsHeld 0 s) (hf : SlotsHeld 0 (f s)) :
    AnswersWithin (whenLive f s) := by
  unfold whenLive
  split
  · exact .next h
  · exact .next hf

/-- The slots an answer still has to place in: one for a reply, none when the reply comes later. -/
def Answer.slots : Answer → Nat
  | .reply _ _ => 1
  | .later => 0

/-- A body that begins with one slot for its reply and leaves the slots that its answer needs. -/
def CarriesSlot (u : State) (x : State × Answer) : Prop := SlotsHeld 1 u → SlotsHeld x.2.slots x.1

theorem CarriesSlot.refusal (u : State) (o : OutcomeCode) (fields : List Byte) : CarriesSlot u (u, .reply o fields) :=
  id

theorem Replies.carriesSlot {u : State} {x : State × Answer} (h : Replies u x) (hb : BasketsKept u x.1) :
    CarriesSlot u x := by
  cases h with
  | reply hk o fields => exact fun hu => hu.kept hk hb

theorem answerLane_within {k : Byte} {r : Req} {l : LaneNo} {x : State × Answer} (h : SlotsHeld x.2.slots x.1) :
    SlotsHeld 0 (settleClaims (answerLane k r l x)) := by
  obtain ⟨t, _ | _⟩ := x
  · exact (h.placeReserved _).settleClaims
  · exact h.settleClaims

theorem answerBulk_within {k : Byte} {r : Req} {x : State × Answer} (h : SlotsHeld x.2.slots x.1) :
    SlotsHeld 0 (settleClaims (answerBulk k r x)) := by
  obtain ⟨t, _ | _⟩ := x
  · exact (h.placeReserved _).settleClaims
  · exact h.settleClaims

theorem removeFrame_slots (q : QueueId) (f : Frame) (s : State) : SlotsKept s (removeFrame q f s) :=
  ⟨by simp, by rw [removeFrame_link], fun l => by rw [lane_congr (removeFrame_lanes ..)]⟩

theorem removeFrame_kept (q : QueueId) (f : Frame) (s : State) : BasketsKept s (removeFrame q f s) :=
  .of_tables (by simp) (by simp) (by simp) (by simp)

/-- A take from the lane pool reserves the slot of its reply (R5). -/
theorem takeLane_within {f : Frame} {l : LaneNo} {s t : State} (h : SlotsHeld 0 s) (ht : takeLane f l s = some t) :
    SlotsHeld 1 t := by
  have hslot : s.slotFor .laneTake = true := by
    unfold takeLane at ht
    split at ht
    · next hc => exact hc.2.2
    · cases ht
  rw [takeLane_eq ht]
  unfold laneTaken
  refine (((h.reserve hslot).kept (removeFrame_slots ..) (removeFrame_kept ..)).kept
    (touchIdle_slots l _) (touchIdle_kept l _)).kept ?_ (touchReservation_kept l _)
  exact .of_tables (touchReservation_lanes ..) (touchReservation_mainQ ..) (by rw [touchReservation_link])

/-- A take from the bulk queue reserves the slot of its reply (R167). -/
theorem takeBulk_within {f : Frame} {s t : State} (h : SlotsHeld 0 s) (ht : takeBulk f s = some t) :
    SlotsHeld 1 t := by
  have hslot : s.slotFor .bulkTake = true := by
    unfold takeBulk at ht
    split at ht
    · next hc => exact hc.2.2
    · cases ht
  rw [takeBulk_eq ht]
  exact (h.reserve hslot).kept (removeFrame_slots ..) (removeFrame_kept ..)

/-- A lane request keeps the slots when its body does, on every lane whose state the gate lets pass. -/
theorem laneRequest_within {k : Byte} {gate : LaneState → Option OutcomeCode} {len : Nat} {r : Req}
    {body : LaneNo → State → State × Answer} {s : State} (h : SlotsHeld 0 s)
    (hb : ∀ l u, gate (u.lane l).state = none → CarriesSlot u (body l u)) :
    AnswersWithin (laneRequest k gate len r body s) := by
  refine whenLive_within h ?_
  split
  · split
    · next ht => exact answerBulk_within (takeBulk_within h ht)
    · exact h
  · split
    · split
      · next l _ _ u ht =>
        have hu := takeLane_within h ht
        refine answerLane_within ?_
        unfold laneBody
        split
        · exact hu
        · split
          · exact hu
          · next hg =>
            split
            · exact hb l u hg hu
            · exact hu
      · exact h
    · exact h

/-- A bulk request keeps the slots when its body does. -/
theorem bulkRequest_within {k : Byte} {r : Req} {body : State → State × Answer} {s : State} (h : SlotsHeld 0 s)
    (hb : ∀ u, CarriesSlot u (body u)) : AnswersWithin (bulkRequest k r body s) := by
  refine whenLive_within h ?_
  split
  · split
    · next ht => exact answerBulk_within (hb _ (takeBulk_within h ht))
    · exact h
  · split
    · split
      · next ht => exact answerLane_within (x := (_, .reply ..)) (takeLane_within h ht)
      · exact h
    · exact h

theorem onCtx_carriesSlot {l : LaneNo} {body : CtxNo → State → State × Answer} {u : State}
    (h : ∀ c, CarriesSlot u (body c u)) : CarriesSlot u (onCtx l body u) := by
  unfold onCtx
  split
  · exact h _
  · exact CarriesSlot.refusal u _ _

/-- A request on a basket that answers with a reply and moves no basket. -/
theorem repliedRequest_within {k : Byte} {len : Nat} {r : Req} {body : LaneNo → CtxNo → State → State × Answer}
    {s : State} (h : SlotsHeld 0 s) (hr : ∀ l c u, Replies u (body l c u))
    (hb : ∀ l c u, BasketsKept u (body l c u).1) :
    AnswersWithin (laneRequest k gateBasket len r (fun l => onCtx l (body l)) s) :=
  laneRequest_within h fun _ _ _ => onCtx_carriesSlot fun _ => (hr ..).carriesSlot (hb ..)

/-! ### Lanes that a basket comes to and leaves -/

/-- A write of a lane without a basket, which has no slot and settles nothing. -/
theorem SlotsHeld.toOpen {n : Nat} {s : State} {l : LaneNo} {x : Lane} (h : SlotsHeld n s)
    (hl : (s.lane l).state = .idle) (hx : x.state = .opened) : SlotsHeld n (s.setLane l x) := by
  refine h.setLane (by rw [hl]; decide) ?_ fun _ => .inl hx
  rw [Lane.quoteSlots_of (by rw [hl]; decide), Lane.quoteSlots_of (by rw [hx]; decide)]

theorem openBody_carriesSlot {l : LaneNo} {u : State} (hl : (u.lane l).state = .idle) :
    CarriesSlot u (openBody l u) := by
  intro hu
  unfold openBody
  split
  · split
    · exact hu
    · next c _ =>
      split
      · next b _ =>
        rw [openIn_eq]
        exact SlotsHeld.of_tables (SlotsHeld.toOpen (hu.of_tables (t := u.setCtx c _) rfl rfl rfl rfl) hl rfl)
          rfl rfl rfl rfl
      · exact hu
  · exact hu

theorem recallTo_within {l : LaneNo} {c : CtxNo} {n : Nat} (b : BankNo) {u : State} (h : SlotsHeld 1 u)
    (hl : (u.lane l).state = .idle) : SlotsHeld 1 (recallTo l c n b u).1 := by
  unfold recallTo
  dsimp only
  refine ((SlotsHeld.toOpen (h.of_tables ?_ ?_ ?_ ?_) ?_ rfl).kept (bumpRevision_slots c _)
    (bumpRevision_kept c _)).kept (startIdle_slots ..) (startIdle_kept 0 (bumpRevision_mayIdle c ?_))
  · simp [unlist]
  · simp [unlist]
  · simp [unlist]
  · simp [unlist]
  · rw [lane_congr (s := u) (by simp [unlist])]; exact hl
  · exact .inl (by simp)

theorem recallBody_carriesSlot {p : List Byte} {l : LaneNo} {u : State} (hl : (u.lane l).state = .idle) :
    CarriesSlot u (recallBody p l u) := by
  intro hu
  unfold recallBody
  dsimp only
  split
  · split
    · exact hu
    · split
      · exact hu
      · split
        · exact recallTo_within _ hu hl
        · exact hu
  · exact hu

/-- A lane that neither is QUOTING nor settles anything, and whose basket leaves it. -/
theorem SlotsHeld.clearLane {n : Nat} {s : State} {l : LaneNo} (h : SlotsHeld n s)
    (hl : (s.lane l).quoteSlots = 0) (hst : s.stream l = none) : SlotsHeld n (clearLane l s) := by
  refine h.laneChange (l := l) (by simp) (by simp) (fun m hm => ?_) ?_ (fun hi => ?_) (fun m _ => ?_) fun hs => ?_
  · rw [clearLane_lane, if_neg hm]
  · rw [clearLane_lane, if_pos rfl, hl]; rfl
  · rw [clearLane_lane, if_pos rfl] at hi; exact absurd rfl hi
  · rw [stream_congr (clearLane_streams ..)]
  · rw [stream_congr (clearLane_streams ..), hst] at hs
    exact absurd rfl hs

/-- The basket of a lane in OPEN or TOTALLED leaves it. -/
theorem SlotsHeld.vacate {n : Nat} {s : State} {l : LaneNo} (h : SlotsHeld n s) (hl : (s.lane l).mayIdle) :
    SlotsHeld n (Machine.clearLane l s) :=
  h.clearLane (Lane.mayIdle_quoteSlots hl) (h.no_stream (Lane.mayIdle_not_settling hl))

theorem voidBasketBody_carriesSlot {l : LaneNo} (c : CtxNo) {u : State} (hl : (u.lane l).mayIdle) :
    CarriesSlot u (voidBasketBody l c u) := by
  intro hu
  have hv : (freeCtx c (giveBack c u)).lanes = u.lanes := by simp [giveBack]
  refine SlotsHeld.vacate (hu.of_tables hv ?_ ?_ ?_) (by rw [lane_congr hv]; exact hl)
  · simp [giveBack]
  · simp [giveBack]
  · simp [giveBack]

/-- A revision increase before a basket is parked leaves its lane in OPEN or TOTALLED. -/
theorem parkReleased_mayIdle (c : CtxNo) {s : State} {l : LaneNo} (h : (s.lane l).mayIdle) :
    ((parkReleased c s).lane l).mayIdle := by
  unfold parkReleased
  rw [lane_congr (releasePinOf_lanes ..)]
  split
  · exact bumpRevision_mayIdle c h
  · exact h

theorem parkReleased_slots (c : CtxNo) (s : State) : SlotsKept s (parkReleased c s) := by
  unfold parkReleased
  refine .trans ?_ (.of_tables (releasePinOf_lanes ..) (releasePinOf_mainQ ..) (by rw [releasePinOf_link]))
  split
  · exact (removeReservation_slots ..).trans (bumpRevision_slots ..)
  · exact .refl _

/-- The basket of a lane in OPEN or TOTALLED is parked (R154, R160). -/
theorem SlotsHeld.park {n : Nat} {s : State} {l : LaneNo} (h : SlotsHeld n s) (c : CtxNo) (hl : (s.lane l).mayIdle) :
    SlotsHeld n (parkBasket l c s).1 := by
  rw [parkBasket_state]
  exact SlotsHeld.vacate ((h.kept (parkReleased_slots c s) (parkReleased_kept c s)).of_tables rfl rfl rfl rfl)
    (parkReleased_mayIdle c hl)

/-- TOTAL without a quote gives the slot of its reply to the lane, now QUOTING (R8, R142). -/
theorem totalBody_carriesSlot {tag : Byte} {l : LaneNo} (c : CtxNo) {u : State} (hl : (u.lane l).mayIdle) :
    CarriesSlot u (totalBody tag l c u) := by
  intro hu
  have hns := Lane.mayIdle_not_settling hl
  have hq := Lane.mayIdle_quoteSlots hl
  cases hx : (u.ctx c).quote with
  | some q =>
    unfold totalBody
    rw [hx]
    exact hu.setLane hns (by rw [hq]; rfl) fun _ => .inr rfl
  | none =>
    rw [totalBody_waits hx]
    exact SlotsHeld.setLane (hu.of_tables (t := u.setCtx c _) rfl rfl rfl rfl) hns
      (by rw [lane_congr (setCtx_lanes ..), hq]; rfl)
      fun hi => absurd rfl hi

theorem stopIdle_setLane (l : LaneNo) (x : Lane) (s : State) :
    stopIdle l (s.setLane l x) = s.setLane l { x with idleStage := 0, idleTimer := none } := by
  rw [stopIdle, lane_setLane_same, setLane_setLane]

theorem convertPoints_link (c : CtxNo) (used : Nat) (s : State) : (convertPoints c used s).link = s.link := by
  unfold convertPoints; split <;> rfl

theorem convertPoints_streams (c : CtxNo) (used : Nat) (s : State) : (convertPoints c used s).streams = s.streams := by
  unfold convertPoints; split <;> rfl

/-- A stream begins on a lane in TOTALLED, now SETTLING (R148). -/
theorem SlotsHeld.beginStream {n : Nat} {s : State} {l : LaneNo} {x : Lane} (h : SlotsHeld n s)
    (hl : (s.lane l).state = .totalled) (st : Option Stream) (hx : x.state = .settling) (hi : x.idleTimer = none) :
    SlotsHeld n ((s.setLane l x).setStream l st) := by
  refine h.laneChange (l := l) rfl rfl (fun m hm => lane_setLane_ne s x hm) ?_ (fun ht => ?_)
    (fun m hm => stream_setStream_ne _ _ hm) fun _ => ?_
  · show _ = ((s.setLane l x).lane l).quoteSlots + n
    rw [lane_setLane_same, Lane.quoteSlots_of (x := x) (by rw [hx]; decide),
      Lane.quoteSlots_of (x := s.lane l) (by rw [hl]; decide)]
  · change ((s.setLane l x).lane l).idleTimer ≠ none at ht
    rw [lane_setLane_same] at ht
    exact absurd hi ht
  · show ((s.setLane l x).lane l).state = _
    rw [lane_setLane_same, hx]

/-- FINALIZE places the first frame of its stream in the slot of its reply (R147, R150). -/
theorem settle_within {l : LaneNo} {c : CtxNo} (tag : Byte) (q : Quote) {u : State} (hu : SlotsHeld 1 u)
    (hl : (u.lane l).state = .totalled) : SlotsHeld 0 (settle tag l c q u) := by
  have hk : SlotsHeld 1 (convertPoints c q.pointsUsed (spendClaimsOf c u)) :=
    hu.of_tables (by rw [convertPoints_lanes, spendClaimsOf_lanes])
      (by rw [convertPoints_streams, spendClaimsOf_streams])
      (by rw [convertPoints_mainQ, spendClaimsOf_mainQ]) (by rw [convertPoints_link, spendClaimsOf_link])
  have hlane : ((convertPoints c q.pointsUsed (spendClaimsOf c u)).lane l).state = .totalled := by
    rw [lane_congr (s := u) (by rw [convertPoints_lanes, spendClaimsOf_lanes]), hl]
  unfold settle
  dsimp only
  generalize convertPoints c q.pointsUsed (spendClaimsOf c u) = v at hk hlane ⊢
  rw [stopIdle_setLane]
  exact (hk.beginStream hlane _ rfl rfl).placeReserved _

theorem finalizeBody_carriesSlot {tag : Byte} {l : LaneNo} (c : CtxNo) {u : State}
    (hl : (u.lane l).state = .totalled) : CarriesSlot u (finalizeBody tag l c u) := by
  intro hu
  unfold finalizeBody
  split
  · exact settle_within tag _ hu hl
  · exact hu

theorem gateFinalize_none {x : LaneState} (h : gateFinalize x = none) : x = .totalled := by
  cases x <;> simp_all [gateFinalize]

/-! ### Bulk requests -/

/-- The step of a bulk request is that of `bulkRequest` with a body that moves no basket and answers in one of the ways
of `BulkAnswers`. -/
theorem bulk_body {i : Instr} {k : Byte} {r : Req} (hk : i.kind? = some k) (hb : isBulkKind k = true)
    (hr : i.req? = some r) :
    ∃ body, (∀ s, exec i s = bulkRequest k r body s) ∧ (∀ u, BulkAnswers u (body u)) ∧
      ∀ u, BasketsKept u (body u).1 := by
  cases i <;> cases hk <;> cases hr
  case bankBegin => exact ⟨_, fun _ => rfl, fun _ => withLength_answers (bankBeginBody_answers ..),
    fun _ => withLength_kept (bankBeginBody_kept ..)⟩
  case offerPut => exact ⟨_, fun _ => rfl, fun _ => onStaging_answers fun _ => offerPutBody_answers ..,
    fun _ => onStaging_kept fun _ => offerPutBody_kept ..⟩
  case offersClose => exact ⟨_, fun _ => rfl,
    fun _ => withLength_answers (onStaging_answers fun _ => offersCloseBody_answers ..),
    fun _ => withLength_kept (onStaging_kept fun _ => offersCloseBody_kept ..)⟩
  case schedulePut => exact ⟨_, fun _ => rfl,
    fun _ => withLength_answers (onStaging_answers fun _ => schedulePutBody_answers ..),
    fun _ => withLength_kept (onStaging_kept fun _ => schedulePutBody_kept ..)⟩
  case bankCommit => exact ⟨_, fun _ => rfl, fun _ => withLength_answers (bankCommitBody_answers _),
    fun _ => withLength_kept (bankCommitBody_kept _)⟩
  case bankAbandon => exact ⟨_, fun _ => rfl,
    fun _ => withLength_answers (onStaging_answers fun _ => .accepted (setBank_slots ..) _),
    fun _ => withLength_kept (onStaging_kept fun _ => setBank_kept ..)⟩
  case authorityLoad => exact ⟨_, fun _ => rfl, fun _ => authorityLoadBody_answers ..,
    fun _ => authorityLoadBody_kept ..⟩
  case authorityRemove => exact ⟨_, fun _ => rfl, fun _ => withLength_answers (authorityRemoveBody_answers ..),
    fun _ => withLength_kept (authorityRemoveBody_kept ..)⟩
  case authorityClear => exact ⟨_, fun _ => rfl,
    fun _ => withLength_answers (.accepted (by exact .of_tables rfl rfl rfl) _),
    fun _ => withLength_kept (.of_tables rfl rfl rfl rfl)⟩
  case accountBalance => exact ⟨_, fun _ => rfl, fun _ => withLength_answers (accountBalanceBody_answers ..),
    fun _ => withLength_kept (accountBalanceBody_kept ..)⟩
  case queryAccount => exact ⟨_, fun _ => rfl, fun _ => withLength_answers (queryAccountBody_answers ..),
    fun _ => withLength_kept (by rw [queryAccountBody_state]; exact .refl _)⟩
  case queryClaim => exact ⟨_, fun _ => rfl, fun _ => withLength_answers (queryClaimBody_answers ..),
    fun _ => withLength_kept (by rw [queryClaimBody_state]; exact .refl _)⟩
  case configure => exact ⟨_, fun _ => rfl, fun _ => withLength_answers (configureBody_answers ..),
    fun _ => withLength_kept (configureBody_kept ..)⟩
  case dayOpen => exact ⟨_, fun _ => rfl, fun _ => withLength_answers (dayOpenBody_answers ..),
    fun _ => withLength_kept (dayOpenBody_kept ..)⟩
  case clearConditions => exact ⟨_, fun _ => rfl, fun _ => withLength_answers (clearConditionsBody_answers ..),
    fun _ => withLength_kept (clearConditionsBody_kept ..)⟩
  case setMask => exact ⟨_, fun _ => rfl, fun _ => withLength_answers (setMaskBody_answers ..),
    fun _ => withLength_kept (setMaskBody_kept ..)⟩
  case identify => exact ⟨_, fun _ => rfl, fun _ => withLength_answers (.refused ..),
    fun _ => withLength_kept (.refl _)⟩
  case status => exact ⟨_, fun _ => rfl, fun _ => withLength_answers (statusBody_answers ..),
    fun _ => withLength_kept (by rw [statusBody_state]; exact .refl _)⟩
  case restart => exact ⟨_, fun _ => rfl,
    fun _ => withLength_answers (.accepted (by exact .of_tables rfl rfl rfl) _),
    fun _ => withLength_kept (.of_tables rfl rfl rfl rfl)⟩
  all_goals exact absurd hb (by decide)

theorem bulkStep_within {i : Instr} {k : Byte} {r : Req} {s : State} (h : SlotsHeld 0 s) (hk : i.kind? = some k)
    (hb : isBulkKind k = true) (hr : i.req? = some r) : AnswersWithin (exec i s) := by
  obtain ⟨body, he, ha, hkept⟩ := bulk_body hk hb hr
  rw [he]
  exact bulkRequest_within h fun u => (ha u).replies.carriesSlot (hkept u)

/-- Settles O11: of the ways a bulk request is answered, those with another outcome than OK leave the state of the
take. -/
theorem refusedBulkRequestsChangeNothing : Obligations.RefusedBulkRequestsChangeNothing := by
  intro i k r s hk hb hr h0 ht
  obtain ⟨body, he, ha, -⟩ := bulk_body hk hb hr
  rw [he, bulkRequest_takes h0 ht]
  refine ⟨_, rfl, fun o ⟨f, hf, ho⟩ hne => ?_⟩
  have hx := ha (bulkTaken (r.frame k) s)
  generalize body (bulkTaken (r.frame k) s) = x at hx hf ⊢
  cases hx with
  | accepted h fields =>
    rw [answerBulk_reply, settleClaims_frames, placeReserved_frames, h.mainQ, bulkTaken_frames] at hf
    have hlast := (List.append_inj' hf rfl).2
    rw [List.cons.injEq] at hlast
    rw [← hlast.1] at ho
    exact absurd (Option.some.inj ho).symm hne
  | refused oc fields =>
    rw [answerBulk_reply]
    obtain ⟨htaken, hres, -⟩ := bulkAnswered_of (s := s) (t := bulkTaken (r.frame k) s) (k := k) (r := r) (o := oc)
      (fields := fields) rfl rfl rfl
    exact ⟨htaken, hres, bulkFrame_taken s _ _⟩

end Sys2Proof.Machine

/-! Every command keeps the slots of the main queue (R168): the link, the scheduler, the settlement writer, the timers
and the resets, and the step by the command at its front. -/

namespace Sys2Proof.Machine

/-! ### The link -/

theorem storeFrame_slots (q : QueueId) (f : Frame) (s : State) : SlotsKept s (storeFrame q f s) := by
  unfold storeFrame
  dsimp only
  split
  · unfold testCongestion
    dsimp only
    split
    · refine .of_tables (by simp) (by simp) ?_
      simp [makeHold]
    · exact .of_tables (by simp) (by simp) (by simp)
  · exact raise_slots ..

theorem arrive_slots (f : Frame) (s : State) : SlotsKept s (arrive f s) := by
  unfold arrive
  split
  · unfold actHold
    split <;> exact .of_tables rfl rfl rfl
  · exact storeFrame_slots ..

theorem linkFault_slots (k : FaultKind) (s : State) : SlotsKept s (linkFault k s) :=
  .of_tables (by simp) (by simp) (by simp [linkFault])

theorem toHunt_slots (s : State) : SlotsKept s (toHunt s) := .of_tables rfl rfl rfl

theorem toAssemble_slots (got : List Byte) (s : State) : SlotsKept s (toAssemble got s) := .of_tables rfl rfl rfl

theorem receiveByte_slots (b : Byte) (s : State) : SlotsKept s (receiveByte b s) := by
  unfold receiveByte
  split
  · split
    · exact toAssemble_slots ..
    · exact .refl _
  · unfold gather
    split
    · exact (toHunt_slots s).trans (linkFault_slots ..)
    · split
      · unfold completeFrame
        split
        · exact (toHunt_slots s).trans (arrive_slots ..)
        · exact (toHunt_slots s).trans (linkFault_slots ..)
      · exact toAssemble_slots ..

/-- A frame that begins keeps its slot, and no other frame is in transmission then (R168, R171). -/
theorem startNext_within {s : State} (h : SlotsHeld 0 s) (hx : s.link.tx = none) : SlotsHeld 0 (startNext s) := by
  have hocc : s.occupied = s.mainQ.frames.length := by unfold State.occupied; rw [hx]; rfl
  have hmain : SlotsHeld 0 (startMain s) := by
    unfold startMain
    split
    · exact h
    · next f fs hf =>
      refine h.of_counts rfl rfl ?_ rfl rfl
      rw [hocc, hf]
      exact Nat.le_refl _
  have hnotice : SlotsHeld 0 (startNotice s) := by
    unfold startNotice
    split
    · exact h
    · refine h.of_counts rfl rfl ?_ rfl rfl
      rw [hocc]
      exact Nat.le_refl _
  unfold startNext
  split
  · unfold startFirst
    split
    · exact h
    · exact hmain
  · unfold startLater
    split
    · refine h.of_counts rfl rfl ?_ rfl rfl
      rw [hocc]
      exact Nat.le_refl _
    · split
      · exact hmain
      · exact hnotice
      · exact h

/-- The slot of a frame is free when its transmission ends (R168). -/
theorem endFrame_within {s : State} (h : SlotsHeld 0 s) : SlotsHeld 0 (endFrame s) :=
  h.of_counts rfl rfl (Nat.le_add_right _ _) rfl rfl

theorem finishFrame_within (x : Transmission) {s : State} (h : SlotsHeld 0 s) : SlotsHeld 0 (finishFrame x s) := by
  have he := endFrame_within h
  unfold finishFrame
  split
  · refine SlotsHeld.settleClaims ?_
    unfold noteRestart
    split
    · exact he.of_tables rfl rfl rfl rfl
    · exact he
  · exact he.of_tables rfl rfl rfl rfl
  · unfold holdSent
    dsimp only
    split
    · exact he.of_tables (by simp) (by simp) (by simp) (by simp)
    · exact he

theorem renewNow_slots (q : QueueId) (s : State) : SlotsKept s (renewNow q s) := by
  unfold renewNow
  dsimp only
  split
  · refine .of_tables (by simp) (by simp) ?_
    simp [makeHold]
  · exact .of_tables (by simp) (by simp) (by simp)

theorem execUnknownKindAnswer_within (f : Frame) {s : State} (h : SlotsHeld 0 s) :
    AnswersWithin (execUnknownKindAnswer f s) := by
  refine whenLive_within h ?_
  split
  · split
    · next ht => exact ((takeBulk_within h ht).placeReserved _).settleClaims
    · exact h
  · exact h

theorem byte_within (b : Byte) {s : State} (h : SlotsHeld 0 s) :
    AnswersWithin (whenLive (fun s => settleClaims (receiveByte b s)) s) :=
  whenLive_within h (h.kept (receiveByte_slots ..) (receiveByte_kept ..)).settleClaims

theorem execHold_within (r : Req) {s : State} (h : SlotsHeld 0 s) : AnswersWithin (execHold r s) :=
  whenLive_within h (h.kept (arrive_slots ..) (arrive_kept ..)).settleClaims

theorem execGapFault_within {s : State} (h : SlotsHeld 0 s) : AnswersWithin (execGapFault s) := by
  refine whenLive_within h ?_
  split
  · exact (h.kept (toHunt_slots s) (toHunt_kept s)).kept (linkFault_slots ..) (linkFault_kept ..)
  · exact h

theorem execTransmitStart_within {s : State} (h : SlotsHeld 0 s) : AnswersWithin (execTransmitStart s) := by
  refine whenLive_within h ?_
  split
  · next hb =>
    simp only [State.boundary, Bool.and_eq_true, Option.isNone_iff_eq_none] at hb
    exact startNext_within h hb.1.1
  · exact h

theorem execTransmitEnd_within {s : State} (h : SlotsHeld 0 s) : AnswersWithin (execTransmitEnd s) := by
  refine whenLive_within h ?_
  split
  · exact finishFrame_within _ h
  · exact h

theorem execRenewExpiry_within (q : QueueId) {s : State} (h : SlotsHeld 0 s) :
    AnswersWithin (execRenewExpiry q s) := by
  refine whenLive_within h ?_
  split
  · exact h.kept (renewNow_slots ..) (renewNow_kept ..)
  · exact h

theorem execOutputHoldExpiry_within {s : State} (h : SlotsHeld 0 s) : AnswersWithin (execOutputHoldExpiry s) := by
  refine whenLive_within h ?_
  split
  · exact h.of_tables rfl rfl rfl rfl
  · exact h

/-! ### The scheduler -/

theorem passAll_slots (ls : List LaneNo) (s : State) : SlotsKept s (ls.foldl (fun s l => passOver l s) s) := by
  induction ls generalizing s with
  | nil => exact .refl _
  | cons l ls ih => exact .trans (t := passOver l s) (setLane_slots .rfl) (ih _)

theorem grantTo_slots (l : LaneNo) (c : CtxNo) (a : Attachment) (s : State) : SlotsKept s (grantTo l c a s) := by
  unfold grantTo
  dsimp only
  refine (passAll_slots (s.waitingLanes.filter (· != l)) s).trans ?_
  generalize List.foldl (fun s l => passOver l s) s (s.waitingLanes.filter (· != l)) = u
  refine .trans (t := u.setLane l { u.lane l with passOver := 0 }) (setLane_slots .rfl) ?_
  exact .of_tables rfl rfl rfl

theorem setOwed_slots (l : LaneNo) (b : Bool) (s : State) : SlotsKept s (setOwed l b s) := setLane_slots .rfl

/-- A SUBTOTAL takes the place of an older one, or a free slot, or is owed (R143, R144). -/
theorem deliverSubtotal_within (l : LaneNo) (c : CtxNo) (q : Quote) {s : State} (h : SlotsHeld 0 s) :
    SlotsHeld 0 (deliverSubtotal l c q s) := by
  unfold deliverSubtotal
  dsimp only
  split
  · refine h.of_counts rfl rfl (Nat.le_of_eq (occupied_congr ?_ rfl)) rfl rfl
    simp [replaceSubtotal]
  · split
    · next hfree =>
      unfold State.freeSlots at hfree
      exact (h.placeFrame (by omega) _).kept (setOwed_slots ..) (setOwed_kept ..)
    · exact h.kept (setOwed_slots ..) (setOwed_kept ..)

/-- A QUOTE stands in the slot of its lane, which leaves QUOTING (R141, R142). -/
theorem deliverQuote_within {l : LaneNo} (c : CtxNo) (q : Quote) {s : State} (h : SlotsHeld 0 s)
    (hl : (s.lane l).state = .quoting) : SlotsHeld 0 (deliverQuote l c q s) := by
  rw [deliverQuote_eq]
  refine SlotsHeld.placeReserved (h.setLane (k := 1) (by rw [hl]; decide) ?_ fun _ => .inr rfl) _
  simp [Lane.quoteSlots, hl]

theorem deliver_within (a : Attachment) (c : CtxNo) (q : Quote) {s : State} (h : SlotsHeld 0 s) :
    SlotsHeld 0 (deliver a c q s) := by
  unfold deliver
  split
  · next hl => exact deliverQuote_within c q h hl
  · split
    · exact deliverSubtotal_within _ c q h
    · exact h

theorem setCtx_within {n : Nat} {s : State} (h : SlotsHeld n s) (c : CtxNo) (x : Context) :
    SlotsHeld n (s.setCtx c x) := h.of_tables rfl rfl rfl rfl

theorem dealWith_within (q : Snapshot) {s : State} (h : SlotsHeld 0 s) : SlotsHeld 0 (dealWith q s) := by
  unfold dealWith
  dsimp only
  split
  · exact h
  · split
    · exact h
    · exact h
    · split
      · split
        · exact setCtx_within h ..
        · exact h
      · exact deliver_within _ _ _ (setCtx_within h ..)

theorem execResolveGrant_within {s : State} (h : SlotsHeld 0 s) : AnswersWithin (execResolveGrant s) := by
  refine whenLive_within h ?_
  split
  · exact h.kept (grantTo_slots ..) (grantTo_kept ..)
  · exact h

theorem execResolutionComplete_within {s : State} (h : SlotsHeld 0 s) :
    AnswersWithin (execResolutionComplete s) := by
  refine whenLive_within h ?_
  split
  · next f _ =>
    have hf : SlotsHeld 0 (endFlight f s) := h.of_tables rfl rfl rfl rfl
    exact (dealWith_within _ hf).settleClaims
  · exact h

/-! ### Claims that use their slot (R169) -/

/-- A step that places what is next where its claim has a slot. -/
theorem placesNext_within {α : Type} {next : State → Option α} {claim : Claim} {place : α → State → State}
    {s : State} (h : SlotsHeld 0 s)
    (hp : ∀ x, next s = some x → s.slotFor claim = true → SlotsHeld 0 (place x s)) :
    AnswersWithin (placesNext next claim place s) := by
  refine whenLive_within h ?_
  split
  · next hx =>
    split
    · next hc => exact (hp _ hx hc).settleClaims
    · exact h
  · exact h

theorem owedSubtotal_within (l : LaneNo) {s : State} (h : SlotsHeld 0 s) :
    AnswersWithin (exec (.owedSubtotal l) s) := by
  rw [owedSubtotal_eq]
  exact placesNext_within h fun f _ hc => (h.usePlace hc f).kept (setOwed_slots ..) (setOwed_kept ..)

/-- A stream that has begun goes on, on a lane in SETTLING (R148). -/
theorem SlotsHeld.setStream {n : Nat} {s : State} {l : LaneNo} (h : SlotsHeld n s) (hl : s.stream l ≠ none)
    (x : Option Stream) : SlotsHeld n (s.setStream l x) :=
  h.laneChange (l := l) rfl rfl (fun _ _ => rfl) rfl (h.timers l) (fun _ hm => stream_setStream_ne _ _ hm)
    fun _ => h.streams l hl

theorem settlementFrame_within (l : LaneNo) {s : State} (h : SlotsHeld 0 s) :
    AnswersWithin (exec (.settlementFrame l) s) := by
  rw [settlementFrame_eq]
  refine placesNext_within h fun x hx hc => ?_
  have hst : s.stream l ≠ none := by rw [State.openStream_stream hx]; simp
  exact SlotsHeld.setStream (h.usePlace hc _) hst _

/-- The end of a stream leaves its lane, which was SETTLING, without a basket (R151). -/
theorem endStream_within {l : LaneNo} (st : Stream) {s : State} (h : SlotsHeld 0 s) (hl : s.stream l ≠ none)
    (hc : s.slotFor (.stream l) = true) : SlotsHeld 0 (endStream l st s) := by
  have hv := h.usePlace hc (settleFrameOf l st 0x67 (endPayload st))
  have hset : ((placeFrame (settleFrameOf l st 0x67 (endPayload st)) (useSlot (.stream l) s)).lane l).state =
      .settling :=
    h.streams l hl
  have hne : (placeFrame (settleFrameOf l st 0x67 (endPayload st)) (useSlot (.stream l) s)).stream l ≠ none := hl
  unfold endStream
  dsimp only
  generalize placeFrame (settleFrameOf l st 0x67 (endPayload st)) (useSlot (.stream l) s) = v at hv hset hne ⊢
  have hp : SlotsHeld 0 (releasePinOf st.ctx v) := hv.of_tables (by simp) (by simp) (by simp) (by simp)
  have hps : (releasePinOf st.ctx v).stream l ≠ none := by rwa [stream_congr (releasePinOf_streams ..)]
  refine SlotsHeld.clearLane ((hp.setStream hps none).of_tables rfl rfl rfl rfl) (Lane.quoteSlots_of ?_) ?_
  · rw [lane_congr (s := v) (by simp), hset]
    decide
  · rw [stream_congr (freeCtx_streams ..), stream_setStream_same]

theorem settleEnd_within (l : LaneNo) {s : State} (h : SlotsHeld 0 s) : AnswersWithin (exec (.settleEnd l) s) := by
  rw [settleEnd_eq]
  refine placesNext_within h fun st hst hc => endStream_within st h ?_ hc
  rw [State.endingStream_stream hst]
  simp

/-! ### Timers and resets -/

theorem execReservationExpiry_within (c : CtxNo) {s : State} (h : SlotsHeld 0 s) :
    AnswersWithin (execReservationExpiry c s) := by
  refine whenLive_within h ?_
  split
  · exact SlotsHeld.settleClaims (((h.kept (removeReservation_slots ..) (removeReservation_kept c s)).kept
      (bumpRevision_slots ..) (bumpRevision_kept c _)).kept (raise_slots ..) (raise_kept ..))
  · exact h

/-- An idle timer that is due runs on a lane in OPEN or TOTALLED (R158). -/
theorem SlotsHeld.idle_due {n k : Nat} {s : State} {l : LaneNo} (h : SlotsHeld n s) (hd : s.idleDue l k = true) :
    (s.lane l).mayIdle := by
  refine h.timers l fun ht => ?_
  simp [State.idleDue, State.timerDue, ht] at hd

theorem execIdleWarning_within (l : LaneNo) {s : State} (h : SlotsHeld 0 s) : AnswersWithin (execIdleWarning l s) := by
  refine whenLive_within h ?_
  split
  · next hd =>
    exact (h.kept (startIdle_slots ..) (startIdle_kept 1 (h.idle_due hd))).kept (raise_slots ..) (raise_kept ..)
  · exact h

theorem execAutoPark_within (l : LaneNo) {s : State} (h : SlotsHeld 0 s) : AnswersWithin (execAutoPark l s) := by
  refine whenLive_within h ?_
  split
  · next hd =>
    split
    · next c _ =>
      exact SlotsHeld.settleClaims ((h.park c (h.idle_due hd)).of_tables (by simp [autoPark]) (by simp [autoPark])
        (by simp [autoPark]) (by simp [autoPark]))
    · exact h
  · exact h

theorem execParkExpiry_within (c : CtxNo) {s : State} (h : SlotsHeld 0 s) : AnswersWithin (execParkExpiry c s) := by
  refine whenLive_within h ?_
  split
  · exact h.of_tables (by simp [expireParked, unlist]) (by simp [expireParked, unlist])
      (by simp [expireParked, unlist]) (by simp [expireParked, unlist])
  · exact h

/-- A reset leaves the main queue empty and every lane without a slot (R182). -/
theorem hardValues_within (s : State) : SlotsHeld 0 (hardValues s) :=
  ((slotsWithin_iff _).1 reset_slots).of_counts rfl rfl (Nat.zero_le _) rfl rfl

/-- STARTED is placed in an empty main queue (R182). -/
theorem started_within (cause : Byte) (straps : BitVec 2) {s : State} (h : SlotsHeld 0 s) (ho : s.occupied = 0)
    (hr : s.mainQ.reserved = 0) (hv : s.mainQ.served = []) : SlotsHeld 0 (started cause straps s) := by
  refine SlotsHeld.placeFrame (s := { s with device := { s.device with bitRate := straps } })
    (h.of_tables rfl rfl rfl rfl) ?_ _
  show s.occupied + s.mainQ.reserved + s.mainQ.served.length < 24
  rw [ho, hr, hv]
  decide

theorem softValues_within (s : State) : SlotsHeld 0 (softValues s) := by
  have hfree : ∀ l, (State.reset.lane l).state.holdsBasket = false := fun l => by rw [reset_lane]; rfl
  refine SlotsHeld.kept ?_ (configureLanes_slots hfree) (configureLanes_kept hfree)
  exact (hardValues_within s).of_tables rfl rfl rfl rfl

theorem execSoftReset_within (x : BitVec 2) {s : State} (h : SlotsHeld 0 s) : AnswersWithin (execSoftReset x s) := by
  refine whenLive_within h ?_
  split
  · exact started_within _ _ (softValues_within s) rfl rfl rfl
  · exact h

theorem execResetnLow_within (s : State) : AnswersWithin (execResetnLow s) :=
  .next ((hardValues_within s).of_tables rfl rfl rfl rfl)

/-! ### The step -/

theorem exec_within (i : Instr) {s : State} (h : SlotsHeld 0 s) : AnswersWithin (exec i s) := by
  cases i
  case openBasket r => exact laneRequest_within h fun _ _ hg => openBody_carriesSlot (gateIdle_none hg)
  case addLine r => exact repliedRequest_within h (fun _ _ _ => addLineBody_replies ..) fun _ _ _ => addLineBody_kept ..
  case setQty r =>
    exact repliedRequest_within h (fun _ _ _ => onLine_replies fun _ => setQtyBody_replies ..)
      fun _ _ _ => onLine_kept fun _ => setQtyBody_kept ..
  case voidLine r =>
    exact repliedRequest_within h (fun _ _ _ => onLine_replies fun _ => .reply (changeLines_slots ..) ..)
      fun _ _ _ => onLine_kept fun _ => voidLineBody_kept ..
  case override r =>
    exact repliedRequest_within h (fun _ _ _ => onLine_replies fun _ => overrideBody_replies ..)
      fun _ _ _ => onLine_kept fun _ => overrideBody_kept ..
  case clearOverride r =>
    exact repliedRequest_within h (fun _ _ _ => onLine_replies fun _ => .reply (changeLines_slots ..) ..)
      fun _ _ _ => onLine_kept fun _ => clearOverrideBody_kept ..
  case presentCoupon r =>
    exact repliedRequest_within h (fun _ _ _ => presentCouponBody_replies ..) fun _ _ _ => presentCouponBody_kept ..
  case withdrawCoupon r =>
    exact repliedRequest_within h (fun _ _ _ => withdrawCouponBody_replies ..) fun _ _ _ => withdrawCouponBody_kept ..
  case attachAccount r =>
    exact repliedRequest_within h (fun _ _ _ => attachBody_replies ..) fun _ _ _ => attachBody_kept ..
  case detachAccount r =>
    exact repliedRequest_within h (fun _ _ _ => detachBody_replies ..) fun _ _ _ => detachBody_kept ..
  case redeem r => exact repliedRequest_within h (fun _ _ _ => redeemBody_replies ..) fun _ _ _ => redeemBody_kept ..
  case cancelRedeem r =>
    exact repliedRequest_within h (fun _ _ _ => cancelRedeemBody_replies ..) fun _ _ _ => cancelRedeemBody_kept ..
  case setTracking r =>
    exact repliedRequest_within h (fun _ _ _ => setTrackingBody_replies ..) fun _ _ _ => setTrackingBody_kept ..
  case queryBasket r =>
    exact repliedRequest_within h (fun _ _ _ => queryBasketBody_replies ..) fun _ _ _ => queryBasketBody_kept ..
  case total r =>
    exact laneRequest_within h fun _ _ hg => onCtx_carriesSlot fun c => totalBody_carriesSlot c (gateBasket_none hg)
  case finalize r =>
    exact laneRequest_within h fun _ _ hg => onCtx_carriesSlot fun c =>
      finalizeBody_carriesSlot c (gateFinalize_none hg)
  case voidBasket r =>
    exact laneRequest_within h fun _ _ hg => onCtx_carriesSlot fun c =>
      voidBasketBody_carriesSlot c (gateBasket_none hg)
  case park r =>
    exact laneRequest_within h fun _ _ hg => onCtx_carriesSlot fun c hu => hu.park c (gateBasket_none hg)
  case recallBasket r => exact laneRequest_within h fun _ _ hg => recallBody_carriesSlot (gateIdle_none hg)
  case bankBegin | offerPut | offersClose | schedulePut | bankCommit | bankAbandon | authorityLoad | authorityRemove
      | authorityClear | accountBalance | queryAccount | queryClaim | configure | dayOpen | clearConditions | setMask
      | identify | status | restart =>
    exact bulkStep_within h rfl (by decide) rfl
  case unknownKindAnswer f => exact execUnknownKindAnswer_within f h
  case hold r => exact execHold_within r h
  case frameComplete b => exact byte_within b h
  case lengthFault b => exact byte_within b h
  case byteReceived b => exact byte_within b h
  case gapFault => exact execGapFault_within h
  case transmitStart => exact execTransmitStart_within h
  case transmitEnd => exact execTransmitEnd_within h
  case renewExpiry q => exact execRenewExpiry_within q h
  case outputHoldExpiry => exact execOutputHoldExpiry_within h
  case resolveGrant => exact execResolveGrant_within h
  case resolutionComplete => exact execResolutionComplete_within h
  case owedSubtotal l => exact owedSubtotal_within l h
  case settlementFrame l => exact settlementFrame_within l h
  case settleEnd l => exact settleEnd_within l h
  case reservationExpiry c => exact execReservationExpiry_within c h
  case idleWarning l => exact execIdleWarning_within l h
  case autoPark l => exact execAutoPark_within l h
  case parkExpiry c => exact execParkExpiry_within c h
  case hardReset x => exact .next (started_within _ _ (hardValues_within s) rfl rfl rfl)
  case softReset x => exact execSoftReset_within x h
  case resetnLow => exact execResetnLow_within s

/-- Settles O5: every command keeps the law of the slots, and the millisecond of an empty queue touches none. -/
theorem mainQueueSlotsAreKept : Obligations.MainQueueSlotsAreKept := by
  intro s t h hst
  rw [slotsWithin_iff] at h ⊢
  unfold step at hst
  split at hst
  · cases hst
    exact h.of_tables rfl rfl rfl rfl
  · next c rest _ =>
    have hr : SlotsHeld 0 { s with pending := rest } := h.of_tables rfl rfl rfl rfl
    exact exec_within c hr t hst

/-- Settles O2: each command, and the millisecond of an empty queue, is written as a next state, RESETn low or not. -/
theorem noStepStops : Obligations.NoStepStops := by
  have hexec : ∀ (i : Instr) (s : State), GoesOn (exec i s) := fun i s => by
    cases i <;> exact ⟨_, rfl⟩
  intro s
  unfold step
  split
  · exact ⟨_, rfl⟩
  · exact hexec _ _

end Sys2Proof.Machine

/-! The arrivals of the link (R163 to R167, R172 to R174): host HOLD records, sorting and storing, the receiver byte by
byte, a frame sent whole, and the answers to frames that no other block takes. -/

namespace Sys2Proof.Machine

/-! ### The commands of the link -/

theorem hold_arm (r : Req) (s : State) :
    exec (.hold r) s = whenLive (fun s => settleClaims (arrive (r.frame kindHold) s)) s := rfl

theorem gapFault_arm (s : State) :
    exec .gapFault s = whenLive (fun s => if s.timerDue s.link.gap then linkFault .gap (toHunt s) else s) s := rfl

theorem outputHoldExpiry_arm (s : State) : exec .outputHoldExpiry s = whenLive (fun s =>
    if s.timerDue s.link.holdTimer then { s with link := { s.link with hold := .none, holdTimer := none } }
    else s) s := rfl

/-- The three byte rows have the receiver's one meaning (assumption 10). -/
theorem byte_arm {b : Byte} {i : Instr} (hi : i = .byteReceived b ∨ i = .frameComplete b ∨ i = .lengthFault b)
    (s : State) : exec i s = whenLive (fun s => settleClaims (receiveByte b s)) s := by
  rcases hi with rfl | rfl | rfl <;> rfl

/-! ### Timers (R183) -/

theorem timerDue_iff (s : State) (timer : Option Nat) : s.timerDue timer = true ↔ Due s timer := by
  unfold State.timerDue Due
  cases timer <;> simp

/-- A step on a timer that has run out. -/
theorem whenLive_due {timer : State → Option Nat} {f : State → State} {s : State} (hs : Live s)
    (hd : Due s (timer s)) : whenLive (fun s => if s.timerDue (timer s) then f s else s) s = .next (f s) := by
  rw [whenLive_live hs, if_pos ((timerDue_iff _ _).2 hd)]

/-- A step on a timer that has not run out. -/
theorem whenLive_not_due {timer : State → Option Nat} {f : State → State} {s : State} (hd : ¬ Due s (timer s)) :
    whenLive (fun s => if s.timerDue (timer s) then f s else s) s = .next s :=
  whenLive_idle fun _ => if_neg fun h => hd ((timerDue_iff _ _).1 h)

/-! ### Host HOLD records (R166, R174) -/

theorem holdWellFormed_iff (p : List Byte) : holdWellFormed p = true ↔ p.length = 3 ∧ field p 0 1 ≤ 7 := by
  simp [holdWellFormed]

theorem actsAtOnce_iff (f : Frame) :
    Frame.actsAtOnce f = true ↔ f.kind = 0x40 ∧ holdWellFormed f.payload = true := by
  simp [Frame.actsAtOnce, kindHold]

/-- HOLD is the arrival of its frame, and the slots are served (R166, R169). -/
theorem execHold_live {s : State} (hs : Live s) (r : Req) :
    exec (.hold r) s = .next (settleClaims (arrive (r.frame 0x40) s)) :=
  (hold_arm r s).trans (whenLive_live hs)

/-- What a well-formed HOLD writes (R174). -/
theorem actHold_eq (level time : Nat) (s : State) : actHold level time s =
    { s with link := { s.link with
        hold := if time = 0 then .none else if level ≤ s.config.holdThreshold then .full else .bulk
        holdTimer := if time = 0 then none else some (s.now + time) } } := by
  unfold actHold State.after
  by_cases h : time = 0 <;> simp [h]

theorem arrive_hold {f : Frame} (hk : f.kind = 0x40) (hw : holdWellFormed f.payload = true) (s : State) :
    arrive f s = actHold (field f.payload 0 1) (field f.payload 1 2) s :=
  if_pos ((actsAtOnce_iff f).2 ⟨hk, hw⟩)

theorem arrive_stored {f : Frame} (h : ¬ (f.kind = 0x40 ∧ holdWellFormed f.payload = true)) (s : State) :
    arrive f s = storeFrame (queueOf f) f s :=
  if_neg fun ha => h ((actsAtOnce_iff f).1 ha)

/-- Settles O43: a well-formed HOLD acts at its arrival, and its timer ends what it began. -/
theorem holdsStartAndEnd : Obligations.HoldsStartAndEnd := by
  intro s hs
  refine ⟨fun r hlen hlevel => ⟨_, execHold_live hs r, .of_eq ?_⟩,
    fun r _ => ⟨_, execHold_live hs r, .of_eq rfl⟩,
    fun hd => (outputHoldExpiry_arm s).trans (whenLive_due (timer := (·.link.holdTimer)) hs hd),
    fun hd => (outputHoldExpiry_arm s).trans (whenLive_not_due (timer := (·.link.holdTimer)) hd)⟩
  rw [arrive_hold rfl ((holdWellFormed_iff _).2 ⟨hlen, hlevel⟩), actHold_eq]
  rfl

/-! ### The receiver (R164, R165) -/

theorem field_first (b : Byte) (bs : List Byte) : field (b :: bs) 0 1 = b.toNat := by simp [field, be]

theorem be_pair (hi lo : Byte) : be [hi, lo] = hi.toNat * 256 + lo.toNat := by simp [be]

theorem exec_byte {s : State} {b : Byte} {i : Instr} (hs : Live s)
    (hi : i = .byteReceived b ∨ i = .frameComplete b ∨ i = .lengthFault b) :
    exec i s = .next (settleClaims (receiveByte b s)) := (byte_arm hi s).trans (whenLive_live hs)

section
variable {s : State} {b : Byte}

theorem receiveByte_passed (hr : s.link.rx = .hunt) (hb : b ≠ 0x5A) : receiveByte b s = s := by
  rw [receiveByte, hr]
  exact if_neg hb

theorem receiveByte_sof (hr : s.link.rx = .hunt) : receiveByte 0x5A s = toAssemble [] s := by
  rw [receiveByte, hr]
  exact if_pos rfl

theorem receiveByte_length (hr : s.link.rx = .assemble []) (hb : 240 < b.toNat) :
    receiveByte b s = linkFault .length (toHunt s) := by
  rw [receiveByte, hr]
  exact if_pos (by simpa using hb)

/-- A byte that neither is a LEN out of range nor ends the frame is gathered (R164). -/
theorem receiveByte_gathers {got : List Byte} (hr : s.link.rx = .assemble got)
    (hlen : got = [] → b.toNat ≤ 240) (hend : (got ++ [b]).length ≠ field (got ++ [b]) 0 1 + 6) :
    receiveByte b s = toAssemble (got ++ [b]) s := by
  rw [receiveByte, hr]
  dsimp only [gather]
  rw [if_neg, if_neg hend]
  simp only [Bool.and_eq_true, List.isEmpty_iff, decide_eq_true_eq, not_and, Nat.not_lt]
  exact hlen

theorem receiveByte_ends {got : List Byte} (hr : s.link.rx = .assemble got) (hne : got ≠ [])
    (hend : (got ++ [b]).length = field (got ++ [b]) 0 1 + 6) :
    receiveByte b s = completeFrame (got ++ [b]) s := by
  rw [receiveByte, hr]
  dsimp only [gather]
  rw [if_neg (by simp [hne]), if_pos hend]

end

/-- The frame and the check value that the bytes after a SOF stand for (R163). -/
theorem completeFrame_eq {len kind lane tag hi lo : Byte} {payload : List Byte} (hp : payload.length = len.toNat)
    (s : State) : completeFrame (len :: kind :: lane :: tag :: (payload ++ [hi, lo])) s =
      if (crc16 (len :: kind :: lane :: tag :: payload)).toNat = hi.toNat * 256 + lo.toNat then
        arrive { kind := kind, lane := lane, tag := tag, payload := payload } (toHunt s)
      else linkFault .crc (toHunt s) := by
  have hcrc : crcAgrees (len :: kind :: lane :: tag :: (payload ++ [hi, lo])) = true ↔
      (crc16 (len :: kind :: lane :: tag :: payload)).toNat = hi.toNat * 256 + lo.toNat := by
    unfold crcAgrees
    rw [beq_iff_eq, field_first, ← hp, Nat.add_comm 4, ← be_pair]
    simp [field]
  have hframe : (frameOf (len :: kind :: lane :: tag :: (payload ++ [hi, lo]))).1 =
      { kind := kind, lane := lane, tag := tag, payload := payload } := by
    unfold frameOf
    dsimp only
    rw [field_first, ← hp]
    simp [field, be]
  unfold completeFrame
  rw [hframe]
  by_cases h : crcAgrees (len :: kind :: lane :: tag :: (payload ++ [hi, lo])) = true
  · rw [if_pos h, if_pos (hcrc.1 h)]
  · rw [if_neg h, if_neg fun e => h (hcrc.2 e)]

/-- Settles O45: each byte by the state of the receiver and its place in the frame, and the gap timer by its expiry. -/
theorem receiverAssemblesFrames : Obligations.ReceiverAssemblesFrames := by
  intro s b i hs hi
  have he := exec_byte hs hi
  refine ⟨fun hr hb => ⟨_, he, .of_eq (receiveByte_passed hr hb)⟩, fun hr hb => ⟨_, he, .of_eq ?_⟩,
    fun hr hb => ⟨_, he, .of_eq (receiveByte_length hr hb)⟩, fun hr hb => ⟨_, he, .of_eq ?_⟩,
    fun len got hr hne => ⟨_, he, .of_eq ?_⟩, fun len kind lane tag payload hi hr hp => ⟨_, he, .of_eq ?_⟩,
    fun hd => (gapFault_arm s).trans (whenLive_due (timer := (·.link.gap)) hs hd),
    fun hd => (gapFault_arm s).trans (whenLive_not_due (timer := (·.link.gap)) hd)⟩
  · subst hb
    exact receiveByte_sof hr
  · refine receiveByte_gathers hr (fun _ => hb) ?_
    simp [field_first]
  · refine receiveByte_gathers hr (fun h => by cases h) ?_
    rw [List.cons_append, field_first]
    simpa using hne
  · rw [receiveByte_ends hr (by simp) (by simp [field_first, hp])]
    have happ : len :: kind :: lane :: tag :: payload ++ [hi] ++ [b] =
        len :: kind :: lane :: tag :: (payload ++ [hi, b]) :=
      by simp
    rw [happ, completeFrame_eq hp]
    rfl

/-! ### A frame sent byte by byte (R163, R164) -/

/-- Bytes of a frame that do not end it are gathered one after the other. -/
theorem receive_gathers {len : Byte} {got bs : List Byte} (h : got.length + bs.length < len.toNat + 5) (s : State) :
    bs.foldl (fun u b => receiveByte b u) (toAssemble (len :: got) s) = toAssemble (len :: (got ++ bs)) s := by
  induction bs generalizing got with
  | nil => rw [List.append_nil]; rfl
  | cons b bs ih =>
    rw [List.length_cons] at h
    have hstep : receiveByte b (toAssemble (len :: got) s) = toAssemble (len :: (got ++ [b])) s := by
      refine receiveByte_gathers (got := len :: got) rfl (fun h => by cases h) ?_
      rw [List.cons_append, field_first, List.length_cons, List.length_append, List.length_singleton]
      omega
    rw [List.foldl_cons, hstep, ih (by rw [List.length_append, List.length_singleton]; omega), List.append_assoc]
    rfl

/-- The two bytes of a check value give it back. -/
theorem crc_bytes (c : BitVec 16) :
    ∃ hi lo : Byte, enc 2 c.toNat = [hi, lo] ∧ c.toNat = hi.toNat * 256 + lo.toNat := by
  refine ⟨BitVec.ofNat 8 (c.toNat / 256), BitVec.ofNat 8 c.toNat, rfl, ?_⟩
  have hc := c.isLt
  rw [BitVec.toNat_ofNat, BitVec.toNat_ofNat]
  omega

/-- Settles O46: SOF and LEN begin the frame, all but its last byte are gathered, and the last finds the check value
right. -/
theorem receivingAFrameDeliversIt : Obligations.ReceivingAFrameDeliversIt := by
  intro f s hlen hr
  obtain ⟨hi, lo, henc, hcrc⟩ := crc_bytes (crc16 (frameBody f))
  have hl : (BitVec.ofNat 8 f.payload.length).toNat = f.payload.length := by
    rw [BitVec.toNat_ofNat]; omega
  have hwire : frameWire f = 0x5A :: BitVec.ofNat 8 f.payload.length ::
      (f.kind :: f.lane :: f.tag :: (f.payload ++ [hi]) ++ [lo]) := by
    rw [frameWire, henc]
    simp [frameBody, sof]
  have hfirst : receiveByte (BitVec.ofNat 8 f.payload.length) (toAssemble [] s) =
      toAssemble [BitVec.ofNat 8 f.payload.length] s :=
    receiveByte_gathers (got := []) rfl (fun _ => by omega) (by simp [field_first])
  rw [hwire, List.foldl_cons, List.foldl_cons, receiveByte_sof hr, hfirst, List.foldl_append,
    receive_gathers (by rw [hl]; simp), List.nil_append, List.foldl_cons, List.foldl_nil,
    receiveByte_ends rfl (by simp) (by simp [field_first, hl])]
  have happ : BitVec.ofNat 8 f.payload.length :: f.kind :: f.lane :: f.tag :: (f.payload ++ [hi]) ++ [lo] =
      BitVec.ofNat 8 f.payload.length :: f.kind :: f.lane :: f.tag :: (f.payload ++ [hi, lo]) := by simp
  rw [happ, completeFrame_eq hl.symm]
  exact if_pos hcrc

/-! ### Sorting and storing (R166, R167, R172) -/

/-- The queue of an arrival: the lane pool for a known request with LANE 1 to 8, the bulk queue for the rest. -/
theorem queueOf_eq (f : Frame) : queueOf f =
    if (isLaneKind f.kind ∨ isBulkKind f.kind) ∧ 1 ≤ f.lane.toNat ∧ f.lane.toNat ≤ 8 then .pool
    else .bulk := by
  have hhold : f.kind = kindHold → isLaneKind f.kind = false ∧ isBulkKind f.kind = false := by
    rintro h; rw [h]; decide
  have hknown : (!isKnownKind f.kind || f.kind == kindHold) = !(isLaneKind f.kind || isBulkKind f.kind) := by
    unfold isKnownKind
    by_cases h : f.kind = kindHold
    · obtain ⟨hl, hb⟩ := hhold h
      simp [h, h ▸ hl, h ▸ hb]
    · simp [beq_eq_false_iff_ne.2 h]
  have hlane : (laneOf f.lane).isSome = true ↔ 1 ≤ f.lane.toNat ∧ f.lane.toNat ≤ 8 := by
    unfold laneOf
    split <;> simp [*]
  unfold queueOf
  rw [hknown]
  by_cases hk : isLaneKind f.kind = true ∨ isBulkKind f.kind = true
  · rw [if_neg (by rcases hk with h | h <;> simp [h])]
    by_cases hl : 1 ≤ f.lane.toNat ∧ f.lane.toNat ≤ 8
    · rw [if_pos (hlane.2 hl), if_pos ⟨hk, hl⟩]
    · rw [if_neg fun h => hl (hlane.1 h), if_neg fun h => hl h.2]
  · rw [if_pos (by simpa using hk), if_neg fun h => hk h.1]

theorem setInbound_setInbound (s : State) (q : QueueId) (x y : Inbound) :
    (s.setInbound q x).setInbound q y = s.setInbound q y := by cases q <;> rfl

theorem setInbound_watermark (s : State) (q p : QueueId) (x : Inbound) :
    (s.setInbound q x).watermark p = s.watermark p := by
  cases q <;> cases p <;> rfl

section
variable {s : State} {q : QueueId} (f : Frame)

theorem storeFrame_joins (hroom : (s.inbound q).frames.length < capacity q)
    (hno : (s.inbound q).congested = true ∨ (s.inbound q).frames.length + 1 < s.watermark q) :
    storeFrame q f s = s.setInbound q { s.inbound q with frames := (s.inbound q).frames ++ [f] } := by
  refine (if_pos hroom).trans ?_
  dsimp only [testCongestion]
  rw [inbound_setInbound_same, setInbound_watermark, if_neg]
  rcases hno with h | h
  · simp [h]
  · simp only [List.length_append, List.length_singleton, Bool.and_eq_true, decide_eq_true_eq, not_and, Nat.not_le]
    exact fun _ => h

theorem storeFrame_congests (hroom : (s.inbound q).frames.length < capacity q)
    (hclear : (s.inbound q).congested = false) (hmark : s.watermark q ≤ (s.inbound q).frames.length + 1) :
    storeFrame q f s = makeHold (queueScope q) s.config.holdTime
      (s.setInbound q { s.inbound q with frames := (s.inbound q).frames ++ [f], congested := true }) := by
  refine (if_pos hroom).trans ?_
  dsimp only [testCongestion]
  rw [inbound_setInbound_same, setInbound_watermark, setInbound_config, setInbound_setInbound, if_pos]
  simp [hclear, hmark]

theorem storeFrame_overruns (hfull : capacity q ≤ (s.inbound q).frames.length) :
    storeFrame q f s = raise .inboundOverrun (fun d => { d with lanes := d.lanes ||| overrunLanes q f }) s :=
  if_neg (Nat.not_lt.2 hfull)

end

/-- The capacity, the watermark and the scope of a queue (R167, R172). -/
theorem queue_figures {s : State} {q : QueueId} {room mark : Nat} {scope : HoldScope}
    (h : (q = .pool ∧ room = 24 ∧ mark = s.config.poolWatermark ∧ scope = HoldScope.full) ∨
      (q = .bulk ∧ room = 8 ∧ mark = s.config.bulkWatermark ∧ scope = HoldScope.bulk)) :
    room = capacity q ∧ mark = s.watermark q ∧ scope = queueScope q := by
  rcases h with ⟨rfl, rfl, rfl, rfl⟩ | ⟨rfl, rfl, rfl, rfl⟩ <;> exact ⟨rfl, rfl, rfl⟩

/-! ### Frames answered with kind 0xFE (R166) -/

/-- The outcome of R166 for each of its three cases. -/
theorem unanswerableOutcome_eq {f : Frame} {o : OutcomeCode}
    (h : (isKnownKind f.kind = false ∧ o = .badKind) ∨
      (isKnownKind f.kind = true ∧ 8 < f.lane.toNat ∧ o = .badLane) ∨
      (f.kind = 0x40 ∧ f.lane.toNat ≤ 8 ∧ o = .badField)) : unanswerableOutcome f = some o := by
  unfold unanswerableOutcome
  rcases h with ⟨hk, rfl⟩ | ⟨hk, hl, rfl⟩ | ⟨hk, hl, rfl⟩
  · simp [hk]
  · simp [hk, hl]
  · have hknown : isKnownKind 64#8 = true := by decide
    simp [hk, hknown, Nat.not_lt.2 hl, kindHold]

theorem execUnknownKindAnswer_takes {f : Frame} {o : OutcomeCode} {s : State} (ht : TakesBulk s f)
    (ho : unanswerableOutcome f = some o) :
    exec (.unknownKindAnswer f) s = .next (settleClaims (placeReserved (unknownReply f o) (bulkTaken f s))) := by
  have hlive : s.device.resetLow = false := ht.1
  show execUnknownKindAnswer f s = _
  unfold execUnknownKindAnswer
  rw [whenLive_live hlive]
  simp only [ho, takeBulk_of ht]

/-- Settles O44: an arrival by the room and the watermark of its queue, and a frame of no other block by its take. -/
theorem arrivalsAreStoredOrAnswered : Obligations.ArrivalsAreStoredOrAnswered := by
  refine ⟨fun f s q hf hq room mark scope hfig => ?_,
    fun scope time s => ⟨_, rfl, makeHold_joins scope time s⟩, fun s f o ht ho => ?_⟩
  · obtain ⟨rfl, rfl, rfl⟩ := queue_figures hfig
    have hstore : arrive f s = storeFrame q f s := by rw [arrive_stored hf, queueOf_eq, ← hq]
    rw [hstore]
    exact ⟨storeFrame_joins f, storeFrame_congests f, storeFrame_overruns f⟩
  · refine ⟨_, execUnknownKindAnswer_takes ht (unanswerableOutcome_eq ho), ?_, ?_, ?_, bulkFrame_taken ..⟩
    · exact (bulkTaken_taken f s).congr (by simp [State.inbound]) (by simp)
    · simp
    · simp [unknownReply]

end Sys2Proof.Machine

/-! The transmitter (R168 to R174, R181, R182): which frame TRANSMIT_START begins, what TRANSMIT_END releases by
the source of the frame, and the renew timers. -/

namespace Sys2Proof.Machine

theorem transmitStart_arm (s : State) :
    exec .transmitStart s = whenLive (fun s => if s.boundary then startNext s else s) s := rfl

theorem renewExpiry_arm (q : QueueId) (s : State) : exec (.renewExpiry q) s =
    whenLive (fun s => if s.timerDue (s.inbound q).renew then renewNow q s else s) s := rfl

/-! ### The start of a frame (R171, R173, R174, R182) -/

theorem boundary_iff (s : State) : s.boundary = true ↔ AtBoundary s := by
  unfold State.boundary AtBoundary
  cases s.link.quietUntil <;> simp [and_assoc]

theorem transmitStart_boundary {s : State} (hs : Live s) (hb : AtBoundary s) :
    exec .transmitStart s = .next (startNext s) := by
  rw [transmitStart_arm, whenLive_live hs, if_pos ((boundary_iff s).2 hb)]

theorem transmitStart_idle {s : State} (h : AtBoundary s → startNext s = s) : exec .transmitStart s = .next s := by
  rw [transmitStart_arm]
  refine whenLive_idle fun _ => ?_
  split
  · next hb => exact h ((boundary_iff s).1 hb)
  · rfl

section
variable {s : State}

theorem startNext_first (h : s.link.lastSent = none) : startNext s = startFirst s :=
  if_pos (by simp [State.startedWaits, h])

theorem startNext_later (h : s.link.lastSent ≠ none) : startNext s = startLater s :=
  if_neg (by simp [State.startedWaits, h])

/-- The oldest frame of the main queue begins. -/
theorem startMain_begins {f : Frame} {fs : List Frame} (h : s.mainQ.frames = f :: fs) :
    startMain s = { s with
      mainQ := { s.mainQ with frames := fs }
      link := { s.link with
        quietUntil := none, lastSent := some .main, tx := some { source := .main, frame := f } } } := by
  unfold startMain
  rw [h]
  rfl

theorem startMain_nothing (h : s.mainQ.frames = []) : startMain s = s := by
  unfold startMain
  rw [h]

/-- The oldest notice begins, its contents read then (R170, R177). -/
theorem startNotice_begins {c : CondClass} {cs : List CondClass} (h : s.notices = c :: cs) :
    startNotice s = { s with link := { s.link with
      quietUntil := none, lastSent := some .notices
      tx := some { source := .notice c, frame := conditionFrame c s } } } := by
  unfold startNotice
  split
  · next h' => cases h.symm.trans h'
  · next h' => cases h.symm.trans h'; rfl

theorem startLater_hold {h : DeviceHold} {hs : List DeviceHold} (hd : s.link.deviceHolds = h :: hs) :
    startLater s = { s with link := { s.link with
      deviceHolds := hs, quietUntil := none, tx := some { source := .deviceHold h, frame := holdFrame h } } } := by
  unfold startLater
  rw [hd]
  rfl

theorem startLater_main (hd : s.link.deviceHolds = []) (hq : s.nextQueue = some .main) :
    startLater s = startMain s := by
  simp only [startLater, hd, hq]

theorem startLater_notices (hd : s.link.deviceHolds = []) (hq : s.nextQueue = some .notices) :
    startLater s = startNotice s := by
  simp only [startLater, hd, hq]

theorem startLater_nothing (hd : s.link.deviceHolds = []) (hq : s.nextQueue = none) : startLater s = s := by
  simp only [startLater, hd, hq]

/-- The main queue's turn (R171): it has a frame that the output hold lets pass, and the notice queue has none to send
or has sent last. -/
theorem nextQueue_main (hf : s.mainQ.frames ≠ []) (hh : s.link.hold ≠ .full)
    (ht : s.link.hold = .bulk ∨ s.notices = [] ∨ s.link.lastSent ≠ some .main) : s.nextQueue = some .main := by
  unfold State.nextQueue
  rcases ht with ht | ht | ht
  · simp [hf, ht]
  · simp [hf, hh, ht]
  · simp [hf, hh, ht]

/-- The notice queue's turn (R171). -/
theorem nextQueue_notices (hn : s.notices ≠ []) (hh : s.link.hold = .none)
    (ht : s.mainQ.frames = [] ∨ s.link.lastSent = some .main) : s.nextQueue = some .notices := by
  unfold State.nextQueue
  rcases ht with ht | ht
  · simp [hn, hh, ht]
  · by_cases hf : s.mainQ.frames = [] <;> simp [hn, hh, ht, hf]

/-- Neither queue has a frame that the output hold lets pass (R171, R174). -/
theorem nextQueue_none (hm : s.mainQ.frames = [] ∨ s.link.hold = .full)
    (hn : s.notices = [] ∨ s.link.hold ≠ .none) : s.nextQueue = none := by
  unfold State.nextQueue
  rcases hm with hm | hm <;> rcases hn with hn | hn <;> simp [hm, hn]

end

/-- A HOLD record as a frame (R163, R188). -/
theorem holdFrame_eq (h : DeviceHold) : holdFrame h =
    { kind := 0x40, lane := 0, tag := 0, payload := (if h.scope = .full then 0 else 7) :: enc 2 h.time } := by
  unfold holdFrame HoldScope.level
  cases h.scope <;> rfl

/-- Settles O47: the first frame after a reset, a device HOLD, the main queue's turn, the notice queue's turn, and
nothing to send. -/
theorem transmitStartChoosesTheNextFrame : Obligations.TransmitStartChoosesTheNextFrame := by
  intro s hs
  refine ⟨fun hb hl f fs hf hh => ?_, fun hb hl h rest hd => ?_, fun hb hl hd f fs hf hh ht => ?_,
    fun hb hl hd c cs hc hh ht => ?_, fun h => transmitStart_idle fun hb => ?_⟩
  · rw [transmitStart_boundary hs hb, startNext_first hl, startFirst, if_neg hh, startMain_begins hf]
  · rw [transmitStart_boundary hs hb, startNext_later hl, startLater_hold hd, holdFrame_eq]
  · rw [transmitStart_boundary hs hb, startNext_later hl,
      startLater_main hd (nextQueue_main (by simp [hf]) hh ht), startMain_begins hf]
  · rw [transmitStart_boundary hs hb, startNext_later hl,
      startLater_notices hd (nextQueue_notices (by simp [hc]) hh ht)]
    exact congrArg _ (startNotice_begins hc)
  · rcases h with h | ⟨hl, hm⟩ | ⟨hd, hm, hn⟩
    · exact absurd hb h
    · rw [startNext_first hl, startFirst]
      rcases hm with hm | hm
      · rw [startMain_nothing hm, ite_self]
      · rw [if_pos hm]
    · by_cases hl : s.link.lastSent = none
      · rw [startNext_first hl, startFirst]
        rcases hm with hm | hm
        · rw [startMain_nothing hm, ite_self]
        · rw [if_pos hm]
      · rw [startNext_later hl, startLater_nothing hd (nextQueue_none hm hn)]

/-! ### The end of a frame (R168 to R170, R173, R181) -/

theorem execTransmitEnd_ends {s : State} (hs : Live s) {x : Transmission} (hx : s.link.tx = some x) :
    exec .transmitEnd s = .next (finishFrame x s) := by
  show execTransmitEnd s = _
  unfold execTransmitEnd
  rw [whenLive_live hs, hx]

theorem execTransmitEnd_idle {s : State} (hx : s.link.tx = none) : exec .transmitEnd s = .next s := by
  show execTransmitEnd s = _
  unfold execTransmitEnd
  exact whenLive_idle fun _ => by rw [hx]

theorem isRestartReply_iff (f : Frame) : isRestartReply f = true ↔ f.kind = 0xB2 ∧ f.payload = [0] := by
  simp [isRestartReply, OutcomeCode.code]

/-- The end of the RESTART reply makes the soft reset due, and no other frame does (R181). -/
theorem noteRestart_eq (f : Frame) (s : State) : noteRestart f s =
    { s with device := { s.device with restart :=
        if s.device.restart = .replying ∧ f.kind = 0xB2 ∧ f.payload = [0] then .due else s.device.restart } } := by
  unfold noteRestart
  by_cases h : s.device.restart = .replying ∧ f.kind = 0xB2 ∧ f.payload = [0]
  · rw [if_pos h, if_pos ⟨h.1, (isRestartReply_iff f).2 h.2⟩]
  · rw [if_neg h, if_neg fun h' => h ⟨h'.1, (isRestartReply_iff f).1 h'.2⟩]

theorem renewExpiry_not_due {q : QueueId} {s : State} (h : ¬ Due s (s.inbound q).renew) :
    exec (.renewExpiry q) s = .next s :=
  (renewExpiry_arm q s).trans (whenLive_not_due (timer := fun s => (s.inbound q).renew) h)

theorem renewExpiry_due {q : QueueId} {s : State} (hs : Live s) (h : Due s (s.inbound q).renew) :
    exec (.renewExpiry q) s = .next (renewNow q s) :=
  (renewExpiry_arm q s).trans (whenLive_due (timer := fun s => (s.inbound q).renew) hs h)

theorem endFrame_inbound (s : State) (q : QueueId) : (endFrame s).inbound q = s.inbound q := by cases q <;> rfl

/-- Settles O48: the end of a frame by its source, and the renew timer by its expiry. -/
theorem transmitEndReleasesWhatWasSent : Obligations.TransmitEndReleasesWhatWasSent := by
  intro s hs
  refine ⟨fun f hx => ⟨_, execTransmitEnd_ends hs hx, .of_eq (noteRestart_eq f (endFrame s))⟩,
    fun f c hx => execTransmitEnd_ends hs hx, fun f h q hx hq => ?_, execTransmitEnd_idle, fun q hd => ?_,
    fun q hd => renewExpiry_not_due hd⟩
  · subst hq
    have he := execTransmitEnd_ends hs hx
    refine ⟨fun hc hr ht => he.trans (congrArg _ ?_), fun hno => he.trans (congrArg _ ?_)⟩
    · refine (if_pos ⟨by rw [endFrame_inbound, hc], hr, ht⟩).trans ?_
      rw [endFrame_inbound]
      rfl
    · refine if_neg fun ⟨hc, hr, ht⟩ => ?_
      rw [endFrame_inbound] at hc
      rcases hno with hn | hn | hn
      · rw [hn] at hc; cases hc
      · exact absurd hr (by rw [show (endFrame s).config.renew = false from hn]; decide)
      · exact ht hn
  · refine ⟨fun hc hr => (renewExpiry_due hs hd).trans (congrArg _ ?_),
      fun hno => (renewExpiry_due hs hd).trans (congrArg _ ?_)⟩
    · refine (if_pos ⟨hc, hr⟩).trans ?_
      cases q <;> rfl
    · refine if_neg fun ⟨hc, hr⟩ => ?_
      rcases hno with hn | hn
      · rw [hn] at hc; cases hc
      · rw [hn] at hr; cases hr

end Sys2Proof.Machine

/-! The condition classes (R176 to R178): what a raise does, what CLEAR_CONDITIONS and SET_MASK change and answer. -/

namespace Sys2Proof.Machine

theorem mem_allClasses (c : CondClass) : c ∈ allClasses := by cases c <;> decide

/-- ATTN is low exactly while a pending class is unmasked (R177). -/
theorem attnLow_iff (s : State) : s.attnLow = true ↔ ∃ d, (s.cond d).pending = true ∧ s.masked d = false := by
  simp [State.attnLow, mem_allClasses]

/-- The pending set is read from the classes alone (R185). -/
theorem pendingSet_congr {s t : State} (h : ∀ c, t.cond c = s.cond c) : t.pendingSet = s.pendingSet := by
  simp only [State.pendingSet, h]

/-- A raise changes the classes and the notices alone (R176). -/
theorem raise_changes (c : CondClass) (u : Detail → Detail) (s : State) :
    raise c u s = { s with conds := (raise c u s).conds, notices := (raise c u s).notices } := by
  apply State.ext <;> simp

/-! ### CLEAR_CONDITIONS (R178) -/

/-- The classes of `cs` that a condition set names are cleared. -/
def clearNamed (set : Nat) (cs : List CondClass) (s : State) : State :=
  cs.foldl (fun s c => if set.testBit c.index then clearClass c s else s) s

theorem clearClasses_eq (set : Nat) (s : State) : clearClasses set s = clearNamed set allClasses s := rfl

theorem clearNamed_cons (set : Nat) (c : CondClass) (cs : List CondClass) (s : State) :
    clearNamed set (c :: cs) s = clearNamed set cs (if set.testBit c.index then clearClass c s else s) := rfl

theorem clearClass_cond (c d : CondClass) (s : State) :
    (clearClass c s).cond d = if d = c ∧ d ≠ .claimsFull then Cond.clear else s.cond d := by
  by_cases hc : c = .claimsFull
  · subst hc
    rw [if_neg fun h => h.2 h.1]
    rfl
  · have hset : (clearClass c s).cond d = (s.setCond c .clear).cond d := by cases c <;> trivial
    rw [hset, cond_setCond]
    by_cases hd : d = c
    · subst hd; simp [hc]
    · simp [hd]

/-- The classes are cleared that the set names, CLAIMS_FULL apart. -/
theorem clearNamed_cond (set : Nat) (cs : List CondClass) (s : State) (d : CondClass) :
    (clearNamed set cs s).cond d =
      if d ∈ cs ∧ d ≠ .claimsFull ∧ set.testBit d.index then Cond.clear else s.cond d := by
  induction cs generalizing s with
  | nil => simp [clearNamed]
  | cons c cs ih =>
    have hstep : (if set.testBit c.index then clearClass c s else s).cond d =
        if d = c ∧ d ≠ .claimsFull ∧ set.testBit d.index then Cond.clear else s.cond d := by
      by_cases hb : set.testBit c.index = true
      · rw [if_pos hb, clearClass_cond]
        by_cases hd : d = c
        · subst hd; simp [hb]
        · simp [hd]
      · rw [if_neg hb, if_neg]
        rintro ⟨rfl, -, h⟩
        exact hb h
    rw [clearNamed_cons, ih, hstep]
    by_cases hn : d ≠ .claimsFull ∧ set.testBit d.index = true
    · by_cases hm : d ∈ cs <;> simp [hm, hn]
    · rw [if_neg fun h => hn h.2, if_neg fun h => hn h.2, if_neg fun h => hn h.2]

/-- Between two states the classes and the last fault kind alone differ. -/
def ClearsOnly (s t : State) : Prop :=
  t = { s with conds := { t.conds with mask := s.conds.mask }, link := { s.link with lastFault := t.link.lastFault } }

theorem ClearsOnly.rfl {s : State} : ClearsOnly s s := by apply State.ext <;> trivial

theorem ClearsOnly.trans {s t u : State} (h : ClearsOnly s t) (h' : ClearsOnly t u) : ClearsOnly s u := by
  unfold ClearsOnly at *
  rw [h', h]

theorem clearClass_clears (c : CondClass) (s : State) : ClearsOnly s (clearClass c s) := by
  cases c <;> exact State.ext rfl rfl rfl rfl rfl rfl rfl rfl rfl rfl rfl rfl rfl rfl rfl rfl rfl rfl rfl rfl

theorem clearNamed_clears (set : Nat) (cs : List CondClass) (s : State) : ClearsOnly s (clearNamed set cs s) := by
  induction cs generalizing s with
  | nil => exact .rfl
  | cons c cs ih =>
    rw [clearNamed_cons]
    refine .trans ?_ (ih _)
    split
    · exact clearClass_clears c s
    · exact .rfl

theorem clearClass_lastFault (c : CondClass) (s : State) :
    (clearClass c s).link.lastFault = if c = .linkFault then .none else s.link.lastFault := by
  cases c <;> rfl

/-- The last fault kind goes with LINK_FAULT. -/
theorem clearNamed_lastFault (set : Nat) (cs : List CondClass) (s : State) :
    (clearNamed set cs s).link.lastFault =
      if .linkFault ∈ cs ∧ set.testBit 0 then .none else s.link.lastFault := by
  induction cs generalizing s with
  | nil => simp [clearNamed]
  | cons c cs ih =>
    rw [clearNamed_cons, ih]
    by_cases hc : c = .linkFault
    · subst hc
      by_cases hb : set.testBit 0 = true
      · have hb' : set.testBit CondClass.linkFault.index = true := hb
        simp [hb, hb', clearClass_lastFault]
      · have hb' : ¬ set.testBit CondClass.linkFault.index = true := hb
        simp [hb, hb']
    · have hstep : (if set.testBit c.index then clearClass c s else s).link.lastFault = s.link.lastFault := by
        split
        · rw [clearClass_lastFault, if_neg hc]
        · rfl
      simp [hstep, Ne.symm hc]

/-- The frame of a bulk request whose body leaves `v`, when `s'` is the state before with what else the request changes,
the pending HOLD records and the main queue excepted. -/
theorem bulkFrame_of {s' v : State} {g : Frame}
    (hv : v = { s' with bulk := v.bulk, link := v.link, mainQ := v.mainQ, draws := v.draws })
    (hlink : v.link = { s'.link with deviceHolds := v.link.deviceHolds })
    (hrequests : v.mainQ.requests = s'.mainQ.requests)
    (hserved : v.mainQ.served = s'.mainQ.served.erase .bulkTake) (hdraws : v.draws = s'.draws) :
    BulkFrame s' (settleClaims (placeReserved g v)) := by
  refine ⟨?_, ?_⟩
  · apply State.ext <;> simp
    case link => exact hlink
    all_goals rw [hv]
  · have hs := settleClaims_served (placeReserved g v)
    simpa [placeReserved, hrequests, hserved, hdraws] using hs

/-- The frame of a bulk request whose body clears classes and the last fault kind. -/
theorem bulkFrame_cleared {f g : Frame} {s v : State} (h : ClearsOnly (bulkTaken f s) v) :
    BulkFrame { s with conds := v.conds, link := { s.link with lastFault := v.link.lastFault } }
      (settleClaims (placeReserved g v)) := by
  have hlink : v.link = { s.link with
      lastFault := v.link.lastFault, deviceHolds := (bulkTaken f s).link.deviceHolds } := by
    have hl := bulkTaken_link f s
    rw [h]
    dsimp only
    rw [hl]
  have hqueue : v.mainQ = (bulkTaken f s).mainQ := by rw [h]
  refine bulkFrame_of ?_ (by rw [hlink]) (by rw [hqueue]; exact bulkTaken_requests ..)
    (by rw [hqueue]; exact bulkTaken_served ..) (by rw [h]; exact bulkTaken_draws ..)
  apply State.ext <;> dsimp only
  all_goals rw [h]; simp

theorem clearConditions_ok {s : State} {r : Req} {set : Nat} (h0 : r.lane = 0) (hl : r.payload.length = 2)
    (hset : set = field r.payload 0 2) (hle : set ≤ 255) (ht : TakesBulk s (r.frame 0x2E)) :
    exec (.clearConditions r) s = .next (settleClaims (answerBulk 0x2E r
      (clearClasses set (bulkTaken (r.frame 0x2E) s),
        .reply .ok (conditionSets (clearClasses set (bulkTaken (r.frame 0x2E) s)))))) := by
  refine (bulkRequest_takes h0 ht _).trans ?_
  rw [withLength, if_pos hl, clearConditionsBody, ← hset, if_pos hle]

theorem clearConditions_clears {s : State} {r : Req} {set : Nat} (h0 : r.lane = 0) (hl : r.payload.length = 2)
    (hset : set = field r.payload 0 2) (hle : set ≤ 255) (ht : TakesBulk s (r.frame 0x2E)) :
    ∃ t, exec (.clearConditions r) s = .next t ∧
      (∀ c, t.cond c = if c ≠ .claimsFull ∧ set.testBit c.index then Cond.clear else s.cond c) ∧
      t.conds.mask = s.conds.mask ∧
      t.link.lastFault = (if set.testBit 0 then .none else s.link.lastFault) ∧
      BulkAnswered s t 0x2E r .ok (enc 2 t.pendingSet ++ enc 2 s.conds.mask.toNat) ∧
      BulkFrame { s with conds := t.conds, link := { s.link with lastFault := t.link.lastFault } } t := by
  obtain ⟨v, hv⟩ : ∃ v, v = clearClasses set (bulkTaken (r.frame 0x2E) s) := ⟨_, rfl⟩
  have hclears : ClearsOnly (bulkTaken (r.frame 0x2E) s) v := hv ▸ clearNamed_clears ..
  have hcond : ∀ c, v.cond c = if c ≠ .claimsFull ∧ set.testBit c.index then Cond.clear else s.cond c := by
    intro c
    rw [hv, clearClasses_eq, clearNamed_cond, cond_congr (bulkTaken_conds ..)]
    simp [mem_allClasses]
  have hmask : v.conds.mask = s.conds.mask := by rw [hclears]; simp
  have hfault : v.link.lastFault = if set.testBit 0 then .none else s.link.lastFault := by
    rw [hv, clearClasses_eq, clearNamed_lastFault, bulkTaken_link]
    simp [mem_allClasses]
  have hbulk : v.bulk = (bulkTaken (r.frame 0x2E) s).bulk := by rw [hclears]
  have hholds : v.link.deviceHolds = (bulkTaken (r.frame 0x2E) s).link.deviceHolds := by rw [hclears]
  have hqueue : v.mainQ = (bulkTaken (r.frame 0x2E) s).mainQ := by rw [hclears]
  refine ⟨_, clearConditions_ok h0 hl hset hle ht, ?_⟩
  rw [← hv, answerBulk_reply]
  have hconds : (settleClaims (placeReserved (bulkReply 0x2E r .ok (conditionSets v)) v)).conds = v.conds := by simp
  have hlink : (settleClaims (placeReserved (bulkReply 0x2E r .ok (conditionSets v)) v)).link = v.link := by simp
  refine ⟨fun c => (cond_congr hconds c).trans (hcond c), by rw [hconds, hmask], by rw [hlink, hfault], ?_, ?_⟩
  · rw [pendingSet_congr (cond_congr hconds), ← hmask]
    exact bulkAnswered_of hbulk hholds hqueue
  · rw [hconds, hlink]
    exact bulkFrame_cleared hclears

/-! ### SET_MASK (R177, R178) -/

/-- The mask a set becomes has the bits of the set (R185). -/
theorem unmasking_eq (s : State) (set : Nat) : unmasking (BitVec.ofNat 8 set) s =
    allClasses.filter fun c =>
      (s.cond c).pending && s.masked c && !set.testBit c.index && !s.notices.contains c := by
  unfold unmasking
  refine List.filter_congr fun c _ => ?_
  rw [BitVec.getLsbD_ofNat, decide_eq_true c.index.isLt, Bool.true_and]

theorem unmasking_congr {s u : State} (hc : u.conds = s.conds) (hn : u.notices = s.notices) (m : BitVec 8) :
    unmasking m u = unmasking m s := by
  unfold unmasking State.cond State.masked
  rw [hc, hn]

theorem setMask_ok {s : State} {r : Req} {set : Nat} (h0 : r.lane = 0) (hl : r.payload.length = 2)
    (hset : set = field r.payload 0 2) (hle : set ≤ 255) (ht : TakesBulk s (r.frame 0x2F)) :
    exec (.setMask r) s = .next (settleClaims (answerBulk 0x2F r
      (setMask (BitVec.ofNat 8 set) (bulkTaken (r.frame 0x2F) s),
        .reply .ok (conditionSets (setMask (BitVec.ofNat 8 set) (bulkTaken (r.frame 0x2F) s)))))) := by
  refine (bulkRequest_takes h0 ht _).trans ?_
  rw [withLength, if_pos hl, setMaskBody, ← hset, if_pos hle]

theorem setMask_masks {s : State} {r : Req} {set : Nat} (h0 : r.lane = 0) (hl : r.payload.length = 2)
    (hset : set = field r.payload 0 2) (hle : set ≤ 255) (ht : TakesBulk s (r.frame 0x2F)) :
    ∃ t new, exec (.setMask r) s = .next t ∧
      t.conds = { s.conds with mask := BitVec.ofNat 8 set } ∧
      t.notices = s.notices ++ new ∧
      new.Perm (allClasses.filter fun c =>
        (s.cond c).pending && s.masked c && !set.testBit c.index && !s.notices.contains c) ∧
      BulkAnswered s t 0x2F r .ok (enc 2 s.pendingSet ++ enc 2 set) ∧
      BulkFrame { s with conds := t.conds, notices := t.notices
                         draws := if 2 ≤ new.length then s.draws + 1 else s.draws } t := by
  obtain ⟨u, hu⟩ : ∃ u, u = bulkTaken (r.frame 0x2F) s := ⟨_, rfl⟩
  obtain ⟨v, hv⟩ : ∃ v, v = setMask (BitVec.ofNat 8 set) u := ⟨_, rfl⟩
  obtain ⟨new, hnew⟩ : ∃ new, new = freeOrder u.draws (fun c => c.index.val) (unmasking (BitVec.ofNat 8 set) u) :=
    ⟨_, rfl⟩
  have hperm : new.Perm (unmasking (BitVec.ofNat 8 set) u) := hnew ▸ freeOrder_perm ..
  have huc : u.conds = s.conds := by rw [hu]; simp
  have hun : u.notices = s.notices := by rw [hu]; simp
  have hsets : conditionSets v = enc 2 s.pendingSet ++ enc 2 set := by
    have hpending : v.pendingSet = s.pendingSet := pendingSet_congr fun c => by
      rw [hv]; exact cond_congr huc c
    have hmask : v.conds.mask.toNat = set := by
      rw [hv]; exact Nat.mod_eq_of_lt (Nat.lt_succ_of_le hle)
    rw [conditionSets, hpending, hmask]
  refine ⟨_, new, setMask_ok h0 hl hset hle ht, ?_⟩
  rw [← hu, ← hv, answerBulk_reply, hsets]
  have hconds : v.conds = { s.conds with mask := BitVec.ofNat 8 set } := by rw [hv, ← huc]; rfl
  have hnotices : v.notices = s.notices ++ new := by rw [hv, hnew, ← hun]; rfl
  have hdraws : v.draws = if 2 ≤ new.length then s.draws + 1 else s.draws := by
    have hud : u.draws = s.draws := by rw [hu]; simp
    rw [hv, hperm.length_eq, ← hud]
    rfl
  refine ⟨by simp [hconds], by simp [hnotices], ?_, ?_, ?_⟩
  · rw [← unmasking_eq, ← unmasking_congr huc hun]
    exact hperm
  · refine bulkAnswered_of ?_ ?_ ?_
    all_goals rw [hv, hu]; rfl
  · have hlink : v.link = (bulkTaken (r.frame 0x2F) s).link := by rw [hv, hu]; rfl
    have hqueue : v.mainQ = (bulkTaken (r.frame 0x2F) s).mainQ := by rw [hv, hu]; rfl
    refine bulkFrame_of ?_ (by rw [hlink]; exact bulkTaken_link ..) (by rw [hqueue]; exact bulkTaken_requests ..)
      (by rw [hqueue]; exact bulkTaken_served ..) hdraws
    rw [settleClaims_conds, placeReserved_conds, settleClaims_notices, placeReserved_notices]
    apply State.ext <;> dsimp only
    all_goals rw [hv]; simp [hu]

/-- Settles O41: a raise, the classes CLEAR_CONDITIONS clears, the notices SET_MASK places, and their refusals. -/
theorem conditionsAreRaisedClearedAndMasked : Obligations.ConditionsAreRaisedClearedAndMasked := by
  refine ⟨fun c u s => ⟨by rw [raise_cond, if_pos rfl],
      ⟨raise_mask .., fun d hd => by rw [raise_cond, if_neg hd]⟩,
      raise_notices .., attnLow_iff s, raise_changes ..⟩, fun s r h0 hl hf => ?_,
    fun s r set h0 hl hset hle => ⟨clearConditions_clears h0 hl hset hle, setMask_masks h0 hl hset hle⟩⟩
  have hn : ¬ field r.payload 0 2 ≤ 0xFF := Nat.not_le.2 hf
  refine ⟨fun ht => bulkRequest_refused h0 ht _ ?_, fun ht => bulkRequest_refused h0 ht _ ?_⟩
  · rw [withLength, if_pos hl, clearConditionsBody, if_neg hn]
    rfl
  · rw [withLength, if_pos hl, setMaskBody, if_neg hn]
    rfl

end Sys2Proof.Machine

/-! RESTART and the resets (R162, R181, R182): what is taken after a RESTART, and the values each reset leaves. -/

namespace Sys2Proof.Machine

/-! ### RESTART (R181) -/

theorem restart_ok {s : State} {r : Req} (h0 : r.lane = 0) (hp : r.payload = []) (ht : TakesBulk s (r.frame 0x32)) :
    exec (.restart r) s =
      .next (settleClaims (answerBulk 0x32 r (restartBody (bulkTaken (r.frame 0x32) s)))) := by
  refine (bulkRequest_takes h0 ht _).trans ?_
  rw [withLength, if_pos (by rw [hp]; rfl)]

theorem restart_replies {s : State} {r : Req} (ht : TakesBulk s (r.frame 0x32)) (h0 : r.lane = 0)
    (hp : r.payload = []) : ∃ t, exec (.restart r) s = .next t ∧ BulkAnswered s t 0x32 r .ok [] ∧
      t.device = { s.device with restart := .replying } ∧ BulkFrame { s with device := t.device } t := by
  refine ⟨_, restart_ok h0 hp ht, ?_⟩
  rw [restartBody, answerBulk_reply]
  refine ⟨bulkAnswered_of rfl rfl rfl, by simp, ?_⟩
  refine bulkFrame_of ?_ (bulkTaken_link ..) (bulkTaken_requests ..) (bulkTaken_served ..) (bulkTaken_draws ..)
  apply State.ext <;> simp

/-- Nothing is taken once a RESTART has been (R181). -/
theorem not_takes_restarted {s : State} (h : s.device.restart ≠ .none) (k : Byte) (r : Req) (l : LaneNo) :
    ¬ TakesLane s k r l ∧ ¬ TakesBulk s (r.frame k) :=
  ⟨fun ⟨_, hnone, _⟩ => h hnone, fun ⟨_, hnone, _⟩ => h hnone⟩

/-! ### The values of a reset (R162, R182) -/

theorem quietAfterCut_eq (s : State) :
    s.quietAfterCut = if s.link.tx = none then s.link.quietUntil else some (s.now + 20) := by
  unfold State.quietAfterCut State.after
  cases s.link.tx <;> rfl

theorem execHardReset_eq (straps : BitVec 2) (s : State) : exec (.hardReset straps) s = .next { State.reset with
      pending := s.pending, now := s.now, draws := s.draws
      link := { State.reset.link with quietUntil := s.quietAfterCut }
      mainQ := { State.reset.mainQ with frames :=
        [{ kind := 0x62, lane := 0, tag := 0
           payload := [if s.device.resetLow then 2 else 1, straps.setWidth 8] }] }
      device := { State.reset.device with bitRate := straps } } := rfl

theorem execResetnLow_eq (s : State) : exec .resetnLow s = .next { State.reset with
      pending := s.pending, now := s.now, draws := s.draws
      link := { State.reset.link with quietUntil := s.quietAfterCut }
      mainQ := { State.reset.mainQ with frames := [] }
      device := { State.reset.device with bitRate := s.device.bitRate, resetLow := true } } := rfl

/-- The lanes after a soft reset follow the kept configuration (R1, R2). -/
theorem softValues_eq (s : State) : softValues s = { hardValues s with
      lanes := Vector.ofFn fun l => { Lane.initial with
        state := if s.config.enabled.getLsbD l then .idle else .off, tracking := s.config.trackingDefault }
      config := s.config, authority := s.authority
      conds := { State.reset.conds with mask := s.conds.mask } } := by
  refine State.ext rfl rfl rfl rfl rfl rfl rfl rfl ?_ rfl rfl rfl rfl rfl rfl rfl rfl rfl rfl rfl
  refine congrArg Vector.ofFn (funext fun l => ?_)
  exact congrArg (fun x : Lane => x.configured (s.config.enabled.getLsbD l) s.config.trackingDefault) (reset_lane l)

theorem softReset_arm (straps : BitVec 2) (s : State) : exec (.softReset straps) s =
    whenLive (fun s => if s.device.restart = .due then started 3 straps (softValues s) else s) s := rfl

/-- Settles O53: RESTART's reply, the takes it stops, and the values a hard reset, RESETn low and a soft reset leave. -/
theorem resetsLeaveTheStatedValues : Obligations.ResetsLeaveTheStatedValues := by
  refine fun s => ⟨fun r => restart_replies, fun k r l h => not_takes_restarted h k r l, fun straps => ?_, ?_,
    fun straps hs hr => ?_, fun straps _ hr => ?_⟩
  · rw [execHardReset_eq, quietAfterCut_eq]
  · rw [execResetnLow_eq, quietAfterCut_eq]
  · rw [softReset_arm, whenLive_live hs, if_pos hr, softValues_eq, ← quietAfterCut_eq]
    rfl
  · rw [softReset_arm]
    exact whenLive_idle fun _ => if_neg hr

end Sys2Proof.Machine

/-! The front of the queue: which command a step carries out, and on which state. -/

namespace Sys2Proof.Machine

theorem step_of_pending_cons {s : State} {c : Instr} {rest : List Instr} (h : s.pending = c :: rest) :
    step s = exec c { s with pending := rest } := by
  unfold step
  rw [h]

/-- Settles O1: the queue of the given state begins with `c`, so the step is `c` on that state with the rest. -/
theorem stepRunsTheFrontCommand : Obligations.StepRunsTheFrontCommand :=
  fun _ _ _ => step_of_pending_cons rfl

end Sys2Proof.Machine


/-! The bounds and laws of the queues, tables, banks and conditions (R39 to R41, R88 to R91, R103, R116, R117, R139, R165,
R167, R169, R170, R173, R182): what an operation in the midst of a step keeps of them. -/

namespace Sys2Proof.Machine

/-! ### What an operation keeps -/

/-- No claim stands twice on the slot request list and the list of served claims (R169). -/
def ClaimsDistinct (s : State) : Prop := (s.mainQ.requests ++ s.mainQ.served).Nodup

/-- An operation keeps each stated law of the queues, tables, banks and conditions. A law about fields that the operation
does not write is the same proposition before and after it. -/
structure TablesKept (s t : State) : Prop where
  inbound : InboundBounded s → InboundBounded t := by exact fun h => h
  notices : NoticesDistinct s → NoticesDistinct t := by exact fun h => h
  holds : HoldsDistinct s → HoldsDistinct t := by exact fun h => h
  started : StartedFirst s → StartedFirst t := by exact fun h => h
  requests : ClaimsDistinct s → ClaimsDistinct t := by exact fun h => h
  authority : AuthoritySound s → AuthoritySound t := by exact fun h => h
  accounts : AccountsOrdered s → AccountsOrdered t := by exact fun h => h
  passOvers : PassOversBounded s → PassOversBounded t := by exact fun h => h
  fault : FaultDetailAgrees s → FaultDetailAgrees t := by exact fun h => h
  claims : ClaimsSound s → ClaimsSound t := by exact fun h => h
  banks : BanksSound s → BanksSound t := by exact fun h => h

theorem TablesKept.refl (s : State) : TablesKept s s := {}

theorem TablesKept.trans {s t u : State} (h : TablesKept s t) (h' : TablesKept t u) : TablesKept s u where
  inbound := h'.inbound ∘ h.inbound
  notices := h'.notices ∘ h.notices
  holds := h'.holds ∘ h.holds
  started := h'.started ∘ h.started
  requests := h'.requests ∘ h.requests
  authority := h'.authority ∘ h.authority
  accounts := h'.accounts ∘ h.accounts
  passOvers := h'.passOvers ∘ h.passOvers
  fault := h'.fault ∘ h.fault
  claims := h'.claims ∘ h.claims
  banks := h'.banks ∘ h.banks

/-- `TablesKept.trans` for a chain that is read from its last operation back. -/
theorem TablesKept.after {s t u : State} (h' : TablesKept t u) (h : TablesKept s t) : TablesKept s u := h.trans h'

/-- An operation that writes lane records, contexts, the park list, the scheduler, streams and configuration only, and of
the lane records no pass-over count. -/
theorem TablesKept.quiet {s t : State} (h : t = { s with
    pending := t.pending, now := t.now, draws := t.draws, lanes := t.lanes, ctxs := t.ctxs, parks := t.parks
    sched := t.sched, streams := t.streams, config := t.config })
    (hl : ∀ l, (t.lane l).passOver = (s.lane l).passOver) : TablesKept s t := by
  have hp : PassOversBounded s → PassOversBounded t := fun hs l => by rw [hl]; exact hs l
  rw [h] at hp ⊢
  exact { passOvers := hp }

/-! ### Lanes and contexts -/

theorem setLane_tables {s : State} {l : LaneNo} {x : Lane} (h : (s.lane l).passOver ≤ 4 → x.passOver ≤ 4) :
    TablesKept s (s.setLane l x) where
  passOvers hs m := by
    rw [lane_setLane]
    split
    · exact h (hs l)
    · exact hs m

theorem setCtx_tables (s : State) (c : CtxNo) (x : Context) : TablesKept s (s.setCtx c x) := {}

theorem bumpRevision_tables (c : CtxNo) (s : State) : TablesKept s (bumpRevision c s) := by
  unfold bumpRevision
  dsimp only
  split
  · exact (setCtx_tables s c _).trans (setLane_tables id)
  · exact setCtx_tables s c _

theorem bumpAll_tables (cs : List CtxNo) (s : State) : TablesKept s (cs.foldl (fun s c => bumpRevision c s) s) := by
  induction cs generalizing s with
  | nil => exact .refl s
  | cons c cs ih => exact (bumpRevision_tables c s).trans (ih _)

/-- A change of a context with its revision increase. -/
theorem edit_tables (s : State) (c : CtxNo) (x : Context) : TablesKept s (bumpRevision c (s.setCtx c x)) :=
  (setCtx_tables s c x).trans (bumpRevision_tables c _)

theorem freeCtx_tables (c : CtxNo) (s : State) : TablesKept s (freeCtx c s) := setCtx_tables ..

theorem startIdle_tables (n : Nat) (l : LaneNo) (s : State) : TablesKept s (startIdle n l s) := by
  unfold startIdle
  split <;> exact setLane_tables id

theorem stopIdle_tables (l : LaneNo) (s : State) : TablesKept s (stopIdle l s) := setLane_tables id

theorem touchIdle_tables (l : LaneNo) (s : State) : TablesKept s (touchIdle l s) := by
  unfold touchIdle
  split
  · exact startIdle_tables ..
  · exact startIdle_tables ..
  all_goals exact .refl s

theorem leaveWaiting_tables (l : LaneNo) (s : State) : TablesKept s (leaveWaiting l s) :=
  .trans (t := s.setLane l { s.lane l with passOver := 0 }) (setLane_tables fun _ => Nat.zero_le 4) {}

theorem clearLane_tables (l : LaneNo) (s : State) : TablesKept s (clearLane l s) :=
  .trans (t := s.setLane l { s.lane l with
    state := .idle, ctx := none, idleStage := 0, idleTimer := none, subtotalOwed := false })
    (setLane_tables id) (leaveWaiting_tables l _)

/-! ### Conditions and notices (R165, R170, R176) -/

/-- A write of a condition keeps the detail of LINK_FAULT, and sets CLAIMS_FULL only where the claim table is full. -/
theorem setCond_tables {s : State} {c : CondClass} {x : Cond} (hf : c ≠ .linkFault)
    (hc : c = .claimsFull → x.pending = true → 96 ≤ s.claims.length ∧ s.oldestSpent = none) :
    TablesKept s (s.setCond c x) where
  fault h := by
    unfold FaultDetailAgrees
    rw [cond_setCond_ne s x hf.symm]
    exact h
  claims h := by
    obtain ⟨hn, hd, hp⟩ := h
    refine ⟨hn, hd, fun hx => ?_⟩
    rw [cond_setCond] at hx
    split at hx
    · next he =>
      obtain ⟨hfull, hspent⟩ := hc he.symm hx
      exact ⟨Nat.le_antisymm hn hfull, hspent⟩
    · exact hp hx

theorem nodup_append_singleton {α : Type} {xs : List α} {x : α} (h : xs.Nodup) (hx : x ∉ xs) : (xs ++ [x]).Nodup := by
  rw [List.nodup_append]
  exact ⟨h, List.nodup_singleton x, fun a ha b hb e => hx (by rw [← List.mem_singleton.1 hb, ← e]; exact ha)⟩

theorem placeNotice_tables (c : CondClass) (s : State) : TablesKept s (placeNotice c s) := by
  unfold placeNotice
  split
  · exact .refl s
  · next h => exact { notices := fun hs => nodup_append_singleton hs (by simpa using h) }

/-- A raise of a class other than LINK_FAULT, and of CLAIMS_FULL for a full claim table only. -/
theorem raise_tables {s : State} {c : CondClass} (u : Detail → Detail) (hf : c ≠ .linkFault)
    (hc : c = .claimsFull → 96 ≤ s.claims.length ∧ s.oldestSpent = none) : TablesKept s (raise c u s) := by
  unfold raise
  dsimp only
  split
  · exact setCond_tables hf fun h _ => hc h
  · exact (setCond_tables hf fun h _ => hc h).trans (placeNotice_tables ..)

/-- A raise of a class that stands for neither the link nor the claim table. -/
theorem raise_other_tables (s : State) {c : CondClass} (u : Detail → Detail) (h : c ≠ .linkFault ∧ c ≠ .claimsFull) :
    TablesKept s (raise c u s) :=
  raise_tables u h.1 fun hc => absurd hc h.2

theorem linkFault_tables (k : FaultKind) (s : State) : TablesKept s (linkFault k s) := by
  have hset : TablesKept s (({ s with link := { s.link with lastFault := k } } : State).setCond .linkFault
      { pending := true, detail := { (s.cond .linkFault).detail with fault := k } }) :=
    { fault := fun _ => by unfold FaultDetailAgrees; rw [cond_setCond_same]; rfl
      claims := fun h => by
        obtain ⟨hn, hd, hp⟩ := h
        exact ⟨hn, hd, fun hx => hp (by rwa [cond_setCond_ne _ _ (by decide)] at hx)⟩ }
  unfold linkFault raise
  dsimp only
  split
  · exact hset
  · exact hset.trans (placeNotice_tables ..)

theorem clearClass_tables (c : CondClass) (s : State) : TablesKept s (clearClass c s) := by
  have hclear : ∀ d, d ≠ .linkFault → TablesKept s (s.setCond d .clear) := fun d hd =>
    setCond_tables hd fun _ h => by cases h
  cases c with
  | claimsFull => exact .refl s
  | linkFault =>
    exact
      { fault := fun _ => by unfold FaultDetailAgrees; rw [clearClass_cond]; rfl
        claims := fun h => by
          obtain ⟨hn, hd, hp⟩ := h
          refine ⟨hn, hd, fun hx => hp ?_⟩
          rwa [clearClass_cond, if_neg (by decide)] at hx }
  | inboundOverrun => exact hclear _ (by decide)
  | holdExpired => exact hclear _ (by decide)
  | holdCut => exact hclear _ (by decide)
  | laneIdle => exact hclear _ (by decide)
  | parkExpired => exact hclear _ (by decide)
  | bankDrained => exact hclear _ (by decide)

theorem clearClasses_tables (set : Nat) (s : State) : TablesKept s (clearClasses set s) := by
  rw [clearClasses_eq]
  generalize allClasses = cs
  induction cs generalizing s with
  | nil => exact .refl s
  | cons c cs ih =>
    rw [clearNamed_cons]
    refine .trans ?_ (ih _)
    split
    · exact clearClass_tables c s
    · exact .refl s

/-- The notices of one SET_MASK are of distinct classes without a notice in the queue (R177). -/
theorem setMask_tables (mask : BitVec 8) (s : State) : TablesKept s (setMask mask s) where
  notices h := by
    have hp := freeOrder_perm s.draws (fun c : CondClass => c.index.val) (unmasking mask s)
    refine List.nodup_append.2 ⟨h, hp.symm.nodup ((by decide : allClasses.Nodup).filter _), fun c hc d hd e => ?_⟩
    have hm := (List.mem_filter.1 (hp.mem_iff.1 hd)).2
    simp [← e, hc] at hm

/-! ### Queues and main-queue slots (R167, R169, R173, R182) -/

theorem setInbound_tables {s : State} {q : QueueId} {x : Inbound}
    (h : x.frames.length ≤ (s.inbound q).frames.length ∨ x.frames.length ≤ capacity q) :
    TablesKept s (s.setInbound q x) := by
  cases q with
  | pool =>
    exact { inbound := fun hs => ⟨h.elim (fun hle => Nat.le_trans hle hs.1) id, hs.2⟩ }
  | bulk =>
    exact { inbound := fun hs => ⟨hs.1, h.elim (fun hle => Nat.le_trans hle hs.2) id⟩ }

/-- A record that replaces the one of its scope or joins the others leaves one record per scope. -/
theorem replaceHold_nodup {hs : List DeviceHold} (h : (hs.map (·.scope)).Nodup) (x : DeviceHold) :
    ((replaceHold x hs).map (·.scope)).Nodup := by
  unfold replaceHold
  split
  · have he : (hs.map fun y => if y.scope == x.scope then x else y).map (·.scope) = hs.map (·.scope) := by
      rw [List.map_map]
      refine List.map_congr_left fun y _ => ?_
      by_cases hy : y.scope = x.scope <;> simp [hy]
    rw [he]
    exact h
  · next hn =>
    rw [List.map_append, List.map_singleton]
    refine nodup_append_singleton h fun hm => hn ?_
    obtain ⟨y, hy, he⟩ := List.mem_map.1 hm
    exact List.any_eq_true.2 ⟨y, hy, by simp [he]⟩

theorem makeHold_tables (scope : HoldScope) (time : Nat) (s : State) : TablesKept s (makeHold scope time s) where
  holds h := replaceHold_nodup h _

theorem clearCongestion_tables (q : QueueId) (s : State) : TablesKept s (clearCongestion q s) := by
  unfold clearCongestion
  dsimp only
  split
  · have hset : TablesKept s (s.setInbound q { s.inbound q with congested := false, renew := none }) :=
      setInbound_tables (.inl (Nat.le_refl _))
    split
    · exact hset.trans (makeHold_tables ..)
    · exact hset
  · exact .refl s

theorem removeFrame_tables (q : QueueId) (f : Frame) (s : State) : TablesKept s (removeFrame q f s) :=
  (setInbound_tables (.inl List.length_erase_le)).trans (clearCongestion_tables ..)

theorem useSlot_tables (c : Claim) (s : State) : TablesKept s (useSlot c s) where
  requests h := h.sublist ((List.erase_sublist ..).append_left _)

theorem reserveSlot_tables (s : State) : TablesKept s (reserveSlot s) := {}

/-- A frame placed at the end of the main queue leaves STARTED at its front (R182). -/
theorem placeFrame_tables (f : Frame) (s : State) : TablesKept s (placeFrame f s) where
  started h := fun hl hs => by
    obtain ⟨cause, rate, hh⟩ := h hl hs
    exact ⟨cause, rate, by rw [placeFrame_frames, List.head?_append, hh]; rfl⟩

theorem placeReserved_tables (f : Frame) (s : State) : TablesKept s (placeReserved f s) :=
  (placeFrame_tables f s).trans {}

theorem settleClaims_tables {s : State} : TablesKept s (settleClaims s) := by
  have hr : ClaimsDistinct s → ClaimsDistinct (settleClaims s) := fun h => (settleClaims_served s).sound h |>.1
  have hf : (settleClaims s).mainQ.frames = s.mainQ.frames := settleClaims_frames s
  rw [(settleClaims_settled s).1] at hr hf ⊢
  exact { requests := hr }

theorem bulkTaken_tables (f : Frame) (s : State) : TablesKept s (bulkTaken f s) :=
  (useSlot_tables .bulkTake s).trans ((reserveSlot_tables _).trans (removeFrame_tables .bulk f _))

end Sys2Proof.Machine


/-! The tables (R39 to R41, R88 to R91, R103, R116, R117): what each operation on accounts, claims, supervisors and banks
keeps of their laws. -/

namespace Sys2Proof.Machine

/-! ### The account table (R116, R117) -/

/-- A change of the entries one by one, under their ids. -/
theorem mapAccounts_tables {s : State} {g : AccountEntry → AccountEntry} (hid : ∀ e, (g e).id = e.id)
    (hr : ∀ e, ((g e).reservations.map (·.ctx)).Sublist (e.reservations.map (·.ctx))) :
    TablesKept s { s with accounts := s.accounts.map g } where
  accounts h := by
    obtain ⟨hn, hc⟩ := h
    have he : (s.accounts.map g).map (·.id) = s.accounts.map (·.id) := by
      rw [List.map_map]
      exact List.map_congr_left fun e _ => hid e
    refine ⟨by rw [he]; exact hn, fun e hm => ?_⟩
    obtain ⟨d, hd, rfl⟩ := List.mem_map.1 hm
    exact (hc d hd).sublist (hr d)

theorem filterAccounts_tables (s : State) (p : AccountEntry → Bool) :
    TablesKept s { s with accounts := s.accounts.filter p } where
  accounts h := by
    obtain ⟨hn, hc⟩ := h
    exact ⟨hn.sublist (List.filter_sublist.map _), fun e hm => hc e (List.mem_filter.1 hm).1⟩

theorem changeAccount_tables {s : State} {g : AccountEntry → AccountEntry} (id : Nat) (hid : ∀ e, (g e).id = e.id)
    (hr : ∀ e, ((g e).reservations.map (·.ctx)).Sublist (e.reservations.map (·.ctx))) :
    TablesKept s (changeAccount id g s) := by
  refine mapAccounts_tables (fun e => ?_) (fun e => ?_)
  · split
    · exact hid e
    · rfl
  · split
    · exact hr e
    · exact .refl _

theorem removeReservation_tables (c : CtxNo) (s : State) : TablesKept s (removeReservation c s) :=
  mapAccounts_tables (fun _ => rfl) fun _ => List.filter_sublist.map _

theorem restartReservation_tables (c : CtxNo) (s : State) : TablesKept s (restartReservation c s) := by
  refine mapAccounts_tables (fun _ => rfl) fun e => ?_
  rw [List.map_map, List.map_congr_left (g := (·.ctx)) fun d _ => ?_]
  show (if _ then _ else d : Reservation).ctx = d.ctx
  split <;> rfl

theorem touchReservation_tables (l : LaneNo) (s : State) : TablesKept s (touchReservation l s) := by
  unfold touchReservation
  split
  · exact restartReservation_tables ..
  · exact .refl s

theorem dropReference_tables (id : Nat) (s : State) : TablesKept s (dropReference id s) := by
  refine .trans (mapAccounts_tables (g := fun e => if e.id == id then { e with refs := e.refs - 1 } else e)
    (fun e => ?_) (fun e => ?_)) (filterAccounts_tables _ _)
  · split <;> rfl
  · split <;> exact .refl _

theorem dropReferenceOf_tables (c : CtxNo) (s : State) : TablesKept s (dropReferenceOf c s) := by
  unfold dropReferenceOf
  split
  · exact dropReference_tables ..
  · exact .refl s

/-- A reservation of a context that has none (R117, R123). -/
theorem reserve_tables (c : CtxNo) (id points : Nat) (s : State) :
    TablesKept s (addReservation c id points (removeReservation c s)) where
  accounts h := by
    obtain ⟨hn, hc⟩ := h
    refine ⟨?_, fun e hm => ?_⟩
    · have he : (addReservation c id points (removeReservation c s)).accounts.map (·.id) = s.accounts.map (·.id) := by
        simp only [addReservation, changeAccount, removeReservation, List.map_map]
        refine List.map_congr_left fun e _ => ?_
        by_cases hid : e.id = id <;> simp [hid]
      rw [he]
      exact hn
    · obtain ⟨d, hd, rfl⟩ := List.mem_map.1 hm
      obtain ⟨e, he, rfl⟩ := List.mem_map.1 hd
      have hf : ((e.reservations.filter fun r => r.ctx != c).map (·.ctx)).Nodup :=
        (hc e he).sublist (List.filter_sublist.map _)
      split
      · rw [List.map_append, List.map_singleton]
        refine nodup_append_singleton hf fun hm => ?_
        obtain ⟨r, hr, hrc⟩ := List.mem_map.1 hm
        exact absurd hrc (by simpa using (List.mem_filter.1 hr).2)
      · exact hf

/-- The cut rule leaves of an entry's reservations the oldest (R127). -/
theorem cutRule_tables (id : Nat) (s : State) : TablesKept s (cutRule id s).1 := by
  cases h : s.account id with
  | none => unfold cutRule; rw [h]; exact .refl s
  | some e =>
    by_cases hc : cutContexts e.reservations e.balance = []
    · rw [cutRule_untouched h hc]; exact .refl s
    · have hcut : TablesKept s (changeAccount id (AccountEntry.withHolds (cutHolds e.reservations e.balance)) s) :=
        { accounts := fun hs => by
            obtain ⟨hn, hr⟩ := hs
            have hids : (changeAccount id (AccountEntry.withHolds (cutHolds e.reservations e.balance)) s).accounts.map
                (·.id) = s.accounts.map (·.id) := by
              simp only [changeAccount, List.map_map]
              refine List.map_congr_left fun d _ => ?_
              by_cases hd : d.id = id <;> simp [hd, AccountEntry.withHolds]
            refine ⟨by rw [hids]; exact hn, fun d hm => ?_⟩
            obtain ⟨b, hb, rfl⟩ := List.mem_map.1 hm
            split
            · have hleft := (cutYoungest_left ((e.reservations.map (·.points)).sum - e.balance)
                e.reservations.reverse).sublist.reverse
              rw [List.map_reverse, List.reverse_reverse, ← List.map_reverse] at hleft
              exact (hr e (List.mem_of_find?_eq_some h)).sublist hleft
            · exact hr b hb }
      rw [cutRule_reduces h hc]
      exact hcut.trans ((bumpAll_tables _ _).trans (raise_other_tables _ _ (by decide)))

/-- An entry for an account that the table does not hold (R120). -/
theorem giveBalance_tables (c : CtxNo) (id balance : Nat) (s : State) : TablesKept s (giveBalance c id balance s).1 := by
  unfold giveBalance
  split
  · next h =>
    exact
      { accounts := fun hs => by
          obtain ⟨hn, hr⟩ := hs
          refine ⟨?_, fun e hm => ?_⟩
          · rw [List.map_append, List.map_singleton]
            refine nodup_append_singleton hn fun hm => ?_
            obtain ⟨e, he, hid⟩ := List.mem_map.1 hm
            exact List.find?_eq_none.1 h e he (by simp [hid])
          · rcases List.mem_append.1 hm with he | he
            · exact hr e he
            · rw [List.mem_singleton.1 he]; exact List.nodup_nil }
  · exact .trans (changeAccount_tables (g := fun e => { e with
        balance := balance, refs := if refersTo s c id then e.refs else e.refs + 1 }) id (fun _ => rfl) fun _ => .refl _)
      (cutRule_tables id _)

theorem dropOther_tables (c : CtxNo) (id : Nat) (s : State) : TablesKept s (dropOther c id s) := by
  unfold dropOther
  split
  · split
    · exact .refl s
    · exact dropReference_tables ..
  · exact .refl s

theorem convertPoints_tables (c : CtxNo) (used : Nat) (s : State) : TablesKept s (convertPoints c used s) := by
  unfold convertPoints
  split
  · exact .refl s
  · next a _ =>
    exact .trans (changeAccount_tables (g := fun e => { e with balance := e.balance - used }) a.id (fun _ => rfl)
      fun _ => .refl _) ((removeReservation_tables c _).trans ((dropReference_tables a.id _).trans (setCtx_tables ..)))

/-! ### The claim table (R88 to R91) -/

/-- The removal of claims (R91): of none it changes nothing, and the first one ends claim exhaustion. -/
theorem removeClaims_tables (p : ClaimEntry → Bool) (s : State) : TablesKept s (removeClaims p s) := by
  by_cases ha : s.claims.any p = true
  · have he : removeClaims p s = endExhaustion { s with claims := s.claims.filter fun e => !p e } := if_pos ha
    rw [he]
    exact
      { fault := fun h => by
          unfold FaultDetailAgrees endExhaustion
          rw [cond_setCond_ne _ _ (by decide)]; exact h
        claims := fun h => by
          obtain ⟨hn, hd, -⟩ := h
          refine ⟨Nat.le_trans (List.length_filter_le ..) hn, hd.sublist (List.filter_sublist.map _), fun hp => ?_⟩
          rw [endExhaustion, cond_setCond_same] at hp
          cases hp }
  · have he : removeClaims p s = { s with claims := s.claims.filter fun e => !p e } := if_neg ha
    have hs : s.claims.filter (fun e => !p e) = s.claims :=
      List.filter_eq_self.2 fun e hm => by simpa using fun hpe => ha (List.any_eq_true.2 ⟨e, hm, hpe⟩)
    rw [he, hs]
    exact .refl s

theorem removeClaimsOf_tables (c : CtxNo) (s : State) : TablesKept s (removeClaimsOf c s) := removeClaims_tables ..

/-- The claims of a context become SPENT in their places (R99). -/
theorem spendClaimsOf_tables (c : CtxNo) (s : State) : TablesKept s (spendClaimsOf c s) := by
  unfold spendClaimsOf
  dsimp only
  split
  · exact
      { fault := fun h => by
          unfold FaultDetailAgrees endExhaustion
          rw [cond_setCond_ne _ _ (by decide)]; exact h
        claims := fun h => by
          obtain ⟨hn, hd, -⟩ := h
          refine ⟨by simpa [endExhaustion] using hn, ?_, fun hp => ?_⟩
          · simp only [endExhaustion, setCond_claims, List.map_map]
            rw [List.map_congr_left (g := (·.serial)) fun e _ => ?_]
            · exact hd
            · show (if _ then _ else e : ClaimEntry).serial = e.serial
              split <;> rfl
          · rw [endExhaustion, cond_setCond_same] at hp
            cases hp }
  · next ha =>
    have hs : (s.claims.map fun e => if e.ownedBy s c then { e with state := .spent s.device.day } else e) =
        s.claims := by
      conv_rhs => rw [← List.map_id s.claims]
      refine List.map_congr_left fun e hm => if_neg fun he => ha (List.any_eq_true.2 ⟨e, hm, he⟩)
    rw [hs]
    exact .refl s

/-- A serial without an entry is claimed: at the end of a table with room, or in place of a SPENT entry (R90). -/
theorem makeClaim_tables {c : CtxNo} {serial : Nat} {s t : State} {e : Option Nat}
    (h : makeClaim c serial s = some (t, e)) (hn : serial = 0 ∨ s.claim serial = none) : TablesKept s t := by
  have hfresh : serial ≠ 0 → serial ∉ s.claims.map (·.serial) := fun hz hm => by
    obtain ⟨d, hd, he⟩ := List.mem_map.1 hm
    exact List.find?_eq_none.1 (hn.resolve_left hz) d hd (by simp [he])
  unfold makeClaim at h
  dsimp only at h
  split at h
  · cases h; exact .refl s
  · next hz =>
    split at h
    · next hroom =>
      cases h
      exact
        { claims := fun hs => by
            obtain ⟨-, hd, hp⟩ := hs
            refine ⟨by simpa using hroom, ?_, fun hx => ?_⟩
            · rw [List.map_append, List.map_singleton]
              exact nodup_append_singleton hd (hfresh hz)
            · exact absurd (hp hx).1 (Nat.ne_of_lt hroom) }
    · split at h
      · next old ho =>
        cases h
        have hm : old ∈ s.claims := List.mem_of_find?_eq_some ho
        exact
          { claims := fun hs => by
              obtain ⟨hl, hd, hp⟩ := hs
              refine ⟨?_, ?_, fun hx => ?_⟩
              · have := List.length_pos_of_mem hm
                simp only [List.length_append, List.length_erase_of_mem hm, List.length_singleton]
                omega
              · rw [List.map_append, List.map_singleton]
                exact nodup_append_singleton (hd.sublist ((List.erase_sublist ..).map _))
                  fun hf => hfresh hz (((List.erase_sublist ..).map _).subset hf)
              · rw [(hp hx).2] at ho
                cases ho }
      · cases h

theorem releaseSerial_tables (c : CtxNo) (n : Nat) (s : State) : TablesKept s (releaseSerial c n s) := by
  unfold releaseSerial
  split
  · exact .refl s
  · exact removeClaims_tables ..

/-! ### The banks (R39 to R41, R58) -/

theorem pairOk_comm (x y : BankState) : pairOk x y = pairOk y x := by cases x <;> cases y <;> rfl

theorem bank_other {b d : BankNo} (h : d ≠ b) : (b = 0 ∧ d = 1) ∨ (b = 1 ∧ d = 0) := by
  revert b d; decide

theorem exists_other (b : BankNo) : ∃ d, d ≠ b := by revert b; decide

theorem eq_of_other {b d e : BankNo} (hd : d ≠ b) (he : e ≠ b) : d = e := by revert b d e; decide

theorem bankIn_none {s : State} {p : BankState → Bool} : s.bankIn p = none ↔ ∀ b, p (s.bank b).state = false := by
  rw [Fin.forall_fin_two]
  unfold State.bankIn
  cases p (s.bank 0).state <;> cases p (s.bank 1).state <;> simp

/-- The bank found is the lowest in such a state. -/
theorem bankIn_some {s : State} {p : BankState → Bool} {b : BankNo} :
    s.bankIn p = some b ↔ p (s.bank b).state = true ∧ ∀ d, d < b → p (s.bank d).state = false := by
  unfold State.bankIn
  rw [Fin.forall_fin_two]
  obtain rfl | rfl : b = 0 ∨ b = 1 := by revert b; decide
  · cases p (s.bank 0).state <;> cases p (s.bank 1).state <;> simp
  · cases p (s.bank 0).state <;> cases p (s.bank 1).state <;> simp

theorem currentBank_state {s : State} {b : BankNo} (h : s.currentBank = some b) : (s.bank b).state = .current := by
  simpa using (bankIn_some.1 h).1

theorem currentBank_none {s : State} : s.currentBank = none ↔ ∀ b, (s.bank b).state ≠ .current := by
  rw [State.currentBank, bankIn_none]
  simp

/-- The bank table told from either bank. -/
theorem banksSound_iff {s : State} {b d : BankNo} (h : d ≠ b) : BanksSound s ↔
    BankLaw (s.bank b) ∧ BankLaw (s.bank d) ∧ pairOk (s.bank b).state (s.bank d).state = true ∧
      (s.device.serving = true →
        ((s.bank b).state = .current ∨ (s.bank d).state = .current) ∧ 0 < s.device.day) := by
  have hc : s.currentBank ≠ none ↔ (s.bank b).state = .current ∨ (s.bank d).state = .current := by
    rw [Ne, currentBank_none, Fin.forall_fin_two]
    obtain ⟨rfl, rfl⟩ | ⟨rfl, rfl⟩ := bank_other h <;> simp only [not_and_or, not_not]
    exact Or.comm
  unfold BanksSound
  rw [hc]
  obtain ⟨rfl, rfl⟩ | ⟨rfl, rfl⟩ := bank_other h
  · rfl
  · rw [pairOk_comm]
    constructor <;> rintro ⟨h0, h1, hr⟩ <;> exact ⟨h1, h0, hr⟩

/-- A write of one bank that fits its state and the other bank, and takes no CURRENT bank away. -/
theorem setBank_tables {s : State} {b : BankNo} {x : Bank}
    (h : ∀ d, d ≠ b → BankLaw (s.bank b) → pairOk (s.bank b).state (s.bank d).state = true →
      BankLaw x ∧ pairOk x.state (s.bank d).state = true ∧ ((s.bank b).state = .current → x.state = .current)) :
    TablesKept s (s.setBank b x) where
  banks hs := by
    obtain ⟨d, hd⟩ := exists_other b
    rw [banksSound_iff hd] at hs ⊢
    obtain ⟨hb, hlaw, hpair, hserve⟩ := hs
    obtain ⟨hx, hxp, hxc⟩ := h d hd hb hpair
    rw [bank_setBank_same, bank_setBank_ne s x hd]
    exact ⟨hx, hlaw, hxp, fun hv => ⟨(hserve hv).1.imp_left hxc, (hserve hv).2⟩⟩

/-- A bank that becomes FREE, STAGING or READY from one of these. -/
theorem setBank_loading_tables {s : State} {b : BankNo} {x : Bank}
    (hs : (s.bank b).state = .staging ∨ (s.bank b).state = .ready) (hx : BankLaw (s.bank b) → BankLaw x)
    (hx' : x.state = .free ∨ x.state = .staging ∨ x.state = .ready) : TablesKept s (s.setBank b x) := by
  refine setBank_tables fun d _ hb hp => ⟨hx hb, ?_, fun hc => ?_⟩
  · revert hp
    rcases hs with hs | hs <;> rcases hx' with hx' | hx' | hx' <;> rw [hs, hx'] <;>
      cases (s.bank d).state <;> simp [pairOk]
  · rcases hs with hs | hs <;> rw [hs] at hc <;> cases hc

theorem emptied_law (x : Bank) : BankLaw x.emptied := ⟨rfl, rfl, rfl, rfl⟩

/-- A pin less fits a bank that is not DRAINING on its last pin (R40, R53). -/
theorem unpinned_law {x : Bank} (h : BankLaw x) (hp : ¬ (x.state = .draining ∧ x.pins ≤ 1)) :
    BankLaw { x with pins := x.pins - 1 } := by
  obtain ⟨state, generation, pins, offers, closed, schedule⟩ := x
  cases state with
  | free =>
    obtain rfl : pins = 0 := h.1
    exact h
  | staging =>
    obtain rfl : pins = 0 := h.1
    exact h
  | ready =>
    obtain rfl : pins = 0 := h.1
    exact h
  | current => exact h
  | draining =>
    have : ¬ pins ≤ 1 := fun hle => hp ⟨rfl, hle⟩
    exact ⟨by simp only; omega, h.2⟩

/-- A pin on the CURRENT bank (R52). -/
theorem pinBank_tables {s : State} {b : BankNo} (h : (s.bank b).state = .current) : TablesKept s (pinBank b s) :=
  setBank_tables fun d _ hb hp => by
    refine ⟨?_, hp, id⟩
    unfold BankLaw at hb ⊢
    simp only [h] at hb ⊢
    exact hb

/-- A pin released (R53): the last one of the DRAINING bank frees it (R54). -/
theorem releasePin_tables (b : BankNo) (s : State) : TablesKept s (releasePin b s) := by
  unfold releasePin
  dsimp only
  split
  · next h =>
    refine .trans (setBank_tables fun d _ _ hp => ⟨emptied_law _, ?_, fun hc => ?_⟩)
      (raise_other_tables _ _ (by decide))
    · revert hp
      rw [h.1]
      cases (s.bank d).state <;> simp [pairOk, Bank.emptied]
    · rw [h.1] at hc; cases hc
  · next h => exact setBank_tables fun d _ hb hp => ⟨unpinned_law hb h, hp, id⟩

theorem releasePinOf_tables (c : CtxNo) (s : State) : TablesKept s (releasePinOf c s) := by
  unfold releasePinOf
  split
  · exact releasePin_tables ..
  · exact .refl s

/-- The device becomes SERVING with a CURRENT bank and an open day only (R58, R180). -/
theorem updateServing_tables (s : State) : TablesKept s (updateServing s) := by
  unfold updateServing
  split
  · next h =>
    rw [Bool.and_eq_true, Option.isSome_iff_ne_none, decide_eq_true_eq] at h
    exact
      { banks := fun hs => by
          obtain ⟨h0, h1, hp, -⟩ := hs
          exact ⟨h0, h1, hp, fun _ => h⟩ }
  · exact .refl s

theorem stagingBank_state {s : State} {b : BankNo} (h : s.stagingBank = some b) :
    (s.bank b).state = .staging ∨ (s.bank b).state = .ready := by
  simpa using (bankIn_some.1 h).1

theorem stagingBank_none {s : State} :
    s.stagingBank = none ↔ ∀ b, (s.bank b).state ≠ .staging ∧ (s.bank b).state ≠ .ready := by
  rw [State.stagingBank, bankIn_none]
  simp

/-- A CURRENT bank replaced is FREE, or DRAINING with its pins (R50). -/
theorem replaced_law {x : Bank} (h : BankLaw x) (hx : x.state = .current) :
    BankLaw x.replaced ∧ (x.replaced.state = .free ∨ x.replaced.state = .draining) := by
  obtain ⟨state, generation, pins, offers, closed, schedule⟩ := x
  subst hx
  unfold Bank.replaced
  split
  · exact ⟨emptied_law _, .inl rfl⟩
  · next hp => exact ⟨⟨Nat.one_le_iff_ne_zero.2 hp, h⟩, .inr rfl⟩

/-- A READY bank committed fits the state CURRENT (R50). -/
theorem committed_law {x : Bank} (h : BankLaw x) (hx : x.state = .ready) :
    BankLaw { x with state := .current, pins := 0 } := by
  obtain ⟨state, generation, pins, offers, closed, schedule⟩ := x
  subst hx
  exact h.2

/-- The former CURRENT bank beside a READY one: there is none, or it is the other bank. -/
theorem replaceCurrent_of_ready {s : State} {b d : BankNo} (h : d ≠ b) (hb : (s.bank b).state = .ready) :
    replaceCurrent s = if (s.bank d).state = .current then s.setBank d (s.bank d).replaced else s := by
  unfold replaceCurrent
  split
  · next e he =>
    have hst := currentBank_state he
    obtain rfl : e = d := by
      by_contra hne
      obtain rfl : e = b := by_contra fun he => hne (eq_of_other he h)
      rw [hb] at hst; cases hst
    rw [if_pos hst]
  · next hn => rw [if_neg (currentBank_none.1 hn d)]

/-- The commit of the READY bank (R50): it is CURRENT, and the former CURRENT bank FREE or DRAINING by its pins. -/
theorem commitBank_tables {s : State} {b : BankNo} (hb : (s.bank b).state = .ready) :
    TablesKept s (commitBank b s) := by
  obtain ⟨d, hd⟩ := exists_other b
  have hrep := replaceCurrent_of_ready hd hb
  refine .trans (t := (replaceCurrent s).setBank b { (replaceCurrent s).bank b with state := .current, pins := 0 })
    ?_ (updateServing_tables _)
  rw [hrep]
  split
  · next hcur =>
    exact
      { banks := fun hs => by
          rw [banksSound_iff hd] at hs ⊢
          obtain ⟨hlb, hld, -, hserve⟩ := hs
          obtain ⟨hlr, hst⟩ := replaced_law hld hcur
          rw [bank_setBank_same, bank_setBank_ne _ _ hd, bank_setBank_same, bank_setBank_ne _ _ hd.symm]
          refine ⟨committed_law hlb hb, hlr, ?_, fun hv => ⟨.inl rfl, (hserve hv).2⟩⟩
          rcases hst with h | h <;> rw [h] <;> rfl }
  · next hcur =>
    refine setBank_tables fun e he hlb hp => ⟨committed_law hlb hb, ?_, fun h => absurd (hb.symm.trans h) (by decide)⟩
    obtain rfl : e = d := eq_of_other he hd
    revert hp hcur
    rw [hb]
    cases (s.bank e).state <;> simp [pairOk]

end Sys2Proof.Machine


/-! Requests that bring several entries (R44, R45, R104, R105): the entry a refusal names, and the authority table after
a load. -/

namespace Sys2Proof.Machine

/-! ### The entry a refusal names (R44, R104) -/

/-- The first entry with a field out of range, or with the key of one before it or of one in `seen`, and the refusal that
names it; the key is the entry's first `w` bytes. OFFER_PUT and AUTHORITY_LOAD both answer so. -/
def entriesRefusal (w : Nat) (checks : List Byte → List (Bool × Nat)) (seen : List Nat) :
    Nat → List (List Byte) → Option Answer
  | _, [] => none
  | i, e :: es =>
    match firstBad (checks e) with
    | some off => some (badField i off)
    | none =>
      if seen.contains (field e 0 w) then some (.reply .duplicate (enc 1 i ++ enc w (field e 0 w)))
      else entriesRefusal w checks (field e 0 w :: seen) (i + 1) es

theorem offersRefusal_eq (seen : List Nat) (i : Nat) (es : List (List Byte)) :
    offersRefusal seen i es = entriesRefusal 2 offerChecks seen i es := by
  induction es generalizing seen i with
  | nil => rfl
  | cons e es ih => simp only [offersRefusal, entriesRefusal, ih] <;> rfl

theorem supervisorsRefusal_eq (seen : List Nat) (i : Nat) (es : List (List Byte)) :
    supervisorsRefusal seen i es = entriesRefusal 3 supervisorChecks seen i es := by
  induction es generalizing seen i with
  | nil => rfl
  | cons e es ih => simp only [supervisorsRefusal, entriesRefusal, ih] <;> rfl

section
variable {w : Nat} {checks : List Byte → List (Bool × Nat)} {seen : List Nat}

/-- A valid entry with a key of its own is passed over. -/
theorem entriesRefusal_cons {e : List Byte} (i : Nat) (es : List (List Byte)) (hok : firstBad (checks e) = none)
    (hs : field e 0 w ∉ seen) :
    entriesRefusal w checks seen i (e :: es) = entriesRefusal w checks (field e 0 w :: seen) (i + 1) es := by
  simp only [entriesRefusal, hok]
  exact if_neg (by simpa using hs)

/-- Valid entries with keys of their own are passed over, and their keys join those seen. -/
theorem entriesRefusal_append {pre : List (List Byte)} (i : Nat) (es : List (List Byte))
    (hok : ∀ x ∈ pre, firstBad (checks x) = none) (hd : (pre.map fun x => field x 0 w).Nodup)
    (hs : ∀ x ∈ pre, field x 0 w ∉ seen) :
    entriesRefusal w checks seen i (pre ++ es) =
      entriesRefusal w checks ((pre.map fun x => field x 0 w).reverse ++ seen) (i + pre.length) es := by
  induction pre generalizing seen i with
  | nil => rfl
  | cons e pre ih =>
    rw [List.map_cons, List.nodup_cons] at hd
    rw [List.cons_append, entriesRefusal_cons i _ (hok e List.mem_cons_self) (hs e List.mem_cons_self),
      ih (i + 1) (fun x hx => hok x (List.mem_cons_of_mem e hx)) hd.2 fun x hx hm => ?_]
    · simp only [List.map_cons, List.reverse_cons, List.append_assoc, List.singleton_append, List.length_cons]
      congr 1
      omega
    · rcases List.mem_cons.1 hm with he | hm
      · exact hd.1 (he ▸ List.mem_map_of_mem hx)
      · exact hs x (List.mem_cons_of_mem e hx) hm

/-- No entry is refused where all are valid and their keys distinct and new. -/
theorem entriesRefusal_none {es : List (List Byte)} (i : Nat) (hok : ∀ x ∈ es, firstBad (checks x) = none)
    (hd : (es.map fun x => field x 0 w).Nodup) (hs : ∀ x ∈ es, field x 0 w ∉ seen) :
    entriesRefusal w checks seen i es = none := by
  have h := entriesRefusal_append i [] hok hd hs
  rwa [List.append_nil] at h

section
variable {es : List (List Byte)} {n : Nat} {e : List Byte} (he : es[n]? = some e)
  (hok : ∀ x ∈ es.take n, firstBad (checks x) = none) (hd : ((es.take n).map fun x => field x 0 w).Nodup)
  (hs : ∀ x ∈ es.take n, field x 0 w ∉ seen)
include he hok hd hs

/-- The refusal of a list whose entries before the one at index `n` are passed over. -/
theorem entriesRefusal_at (i : Nat) : entriesRefusal w checks seen i es =
    entriesRefusal w checks (((es.take n).map fun x => field x 0 w).reverse ++ seen) (i + n) (e :: es.drop (n + 1)) := by
  obtain ⟨hn, hget⟩ := List.getElem?_eq_some_iff.1 he
  have hsplit : es = es.take n ++ e :: es.drop (n + 1) := by
    rw [← hget, ← List.drop_eq_getElem_cons hn, List.take_append_drop]
  conv_lhs => rw [hsplit]
  rw [entriesRefusal_append i _ hok hd hs, List.length_take, Nat.min_eq_left (Nat.le_of_lt hn)]

/-- The first entry with a field out of range is named with that field. -/
theorem entriesRefusal_invalid (i : Nat) {off : Nat} (hbad : firstBad (checks e) = some off) :
    entriesRefusal w checks seen i es = some (badField (i + n) off) := by
  rw [entriesRefusal_at he hok hd hs, entriesRefusal]
  simp only [hbad]

/-- The first entry that repeats a key is named with that key. -/
theorem entriesRefusal_repeats (i : Nat) (hgood : firstBad (checks e) = none)
    (hrep : field e 0 w ∈ seen ∨ ∃ x ∈ es.take n, field x 0 w = field e 0 w) :
    entriesRefusal w checks seen i es = some (.reply .duplicate (enc 1 (i + n) ++ enc w (field e 0 w))) := by
  rw [entriesRefusal_at he hok hd hs, entriesRefusal]
  simp only [hgood]
  refine if_pos (List.elem_iff.2 (List.mem_append.2 ?_))
  rcases hrep with h | ⟨x, hx, hkey⟩
  · exact .inr h
  · exact .inl (List.mem_reverse.2 (List.mem_map.2 ⟨x, hx, hkey⟩))

end

/-- Entries that no refusal names have distinct keys, none of them seen. -/
theorem entriesRefusal_none_keys {i : Nat} {es : List (List Byte)} (h : entriesRefusal w checks seen i es = none) :
    (es.map fun x => field x 0 w).Nodup ∧ ∀ x ∈ es, field x 0 w ∉ seen := by
  induction es generalizing seen i with
  | nil => exact ⟨List.nodup_nil, fun x hx => absurd hx List.not_mem_nil⟩
  | cons e es ih =>
    simp only [entriesRefusal] at h
    split at h
    · cases h
    · split at h
      · cases h
      · next hs =>
        obtain ⟨hd, hn⟩ := ih h
        rw [List.map_cons, List.nodup_cons]
        refine ⟨⟨fun hm => ?_, hd⟩, fun x hx => ?_⟩
        · obtain ⟨x, hx, hkey⟩ := List.mem_map.1 hm
          exact hn x hx (hkey ▸ List.mem_cons_self)
        · rcases List.mem_cons.1 hx with rfl | hx
          · simpa using hs
          · exact fun hm => hn x hx (List.mem_cons_of_mem _ hm)

end

/-! ### The authority table after a load (R103, R105) -/

theorem holdsSupervisor_iff (t : List Supervisor) (id : Nat) :
    holdsSupervisor t id = true ↔ id ∈ t.map (·.id) := by
  simp [holdsSupervisor]

/-- An entry put in the table leaves the ids, or adds its own. -/
theorem putSupervisor_ids (t : List Supervisor) (e : Supervisor) : (putSupervisor t e).map (·.id) =
    if holdsSupervisor t e.id then t.map (·.id) else t.map (·.id) ++ [e.id] := by
  unfold putSupervisor
  split
  · rw [List.map_map]
    refine List.map_congr_left fun x _ => ?_
    by_cases hx : x.id = e.id <;> simp [hx]
  · rw [List.map_append, List.map_singleton]

theorem holdsSupervisor_put (t : List Supervisor) (e : Supervisor) (id : Nat) :
    holdsSupervisor (putSupervisor t e) id = true ↔ holdsSupervisor t id = true ∨ id = e.id := by
  rw [holdsSupervisor_iff, putSupervisor_ids]
  split
  · next h =>
    rw [holdsSupervisor_iff]
    exact ⟨.inl, fun hm => hm.elim (fun h' => h') fun he => he ▸ (holdsSupervisor_iff ..).1 h⟩
  · rw [List.mem_append, List.mem_singleton, holdsSupervisor_iff]

theorem putSupervisors_nodup {t : List Supervisor} (h : (t.map (·.id)).Nodup) (es : List Supervisor) :
    ((es.foldl putSupervisor t).map (·.id)).Nodup := by
  induction es generalizing t with
  | nil => exact h
  | cons e es ih =>
    refine ih ?_
    rw [putSupervisor_ids]
    split
    · exact h
    · next hn => exact nodup_append_singleton h fun hm => hn ((holdsSupervisor_iff ..).2 hm)

/-- The table grows by the entries whose ids it did not hold. -/
theorem putSupervisors_length {es : List Supervisor} (h : (es.map (·.id)).Nodup) (t : List Supervisor) :
    (es.foldl putSupervisor t).length = t.length + (es.filter fun e => !holdsSupervisor t e.id).length := by
  induction es generalizing t with
  | nil => rfl
  | cons e es ih =>
    rw [List.map_cons, List.nodup_cons] at h
    have hrest : es.filter (fun x => !holdsSupervisor (putSupervisor t e) x.id) =
        es.filter fun x => !holdsSupervisor t x.id := by
      refine List.filter_congr fun x hx => ?_
      have hne : x.id ≠ e.id := fun he => h.1 (he ▸ List.mem_map_of_mem hx)
      rw [Bool.not_inj_iff, Bool.eq_iff_iff, holdsSupervisor_put]
      exact or_iff_left hne
    have hlen : (putSupervisor t e).length = if holdsSupervisor t e.id then t.length else t.length + 1 := by
      have hids := congrArg List.length (putSupervisor_ids t e)
      rw [List.length_map] at hids
      rw [hids]
      split <;> simp
    rw [List.foldl_cons, ih h.2, hrest, hlen, List.filter_cons]
    cases holdsSupervisor t e.id <;> simp
    omega

/-- Entries replaced under another id are not found under this one. -/
theorem find?_replaced_ne {e : Supervisor} {id : Nat} (he : e.id ≠ id) (t : List Supervisor) :
    (t.map fun x => if x.id == e.id then e else x).find? (·.id == id) = t.find? (·.id == id) := by
  induction t with
  | nil => rfl
  | cons x t ih =>
    rw [List.map_cons]
    by_cases hx : x.id = e.id
    · rw [if_pos (by simpa using hx), List.find?_cons_of_neg (by simpa using he),
        List.find?_cons_of_neg (by simpa [hx] using he), ih]
    · rw [if_neg (by simpa using hx)]
      by_cases hid : x.id = id
      · rw [List.find?_cons_of_pos (by simpa using hid), List.find?_cons_of_pos (by simpa using hid)]
      · rw [List.find?_cons_of_neg (by simpa using hid), List.find?_cons_of_neg (by simpa using hid), ih]

/-- The entry that replaces the one of its id is found under it. -/
theorem find?_replaced_same {e : Supervisor} {t : List Supervisor} (h : e.id ∈ t.map (·.id)) :
    (t.map fun x => if x.id == e.id then e else x).find? (·.id == e.id) = some e := by
  induction t with
  | nil => cases h
  | cons x t ih =>
    rw [List.map_cons]
    by_cases hx : x.id = e.id
    · rw [if_pos (by simpa using hx), List.find?_cons_of_pos (by simp)]
    · rw [if_neg (by simpa using hx), List.find?_cons_of_neg (by simpa using hx)]
      exact ih ((List.mem_cons.1 h).resolve_left (Ne.symm hx))

theorem putSupervisor_find (t : List Supervisor) (e : Supervisor) (id : Nat) :
    (putSupervisor t e).find? (·.id == id) = if e.id = id then some e else t.find? (·.id == id) := by
  unfold putSupervisor
  split
  · next hh =>
    rw [holdsSupervisor_iff] at hh
    split
    · next he => subst he; exact find?_replaced_same hh
    · next he => exact find?_replaced_ne he t
  · next hn =>
    rw [holdsSupervisor_iff] at hn
    rw [List.find?_append]
    split
    · next he =>
      have hnone : t.find? (·.id == id) = none := List.find?_eq_none.2 fun x hx => by
        simpa using fun hxi => hn (by rw [he, ← hxi]; exact List.mem_map_of_mem hx)
      simp [hnone, he]
    · next he => simp [he]

/-- A supervisor of the loaded table is that of the entries, and else that of the table before. -/
theorem putSupervisors_find {es : List Supervisor} (h : (es.map (·.id)).Nodup) (t : List Supervisor) (id : Nat) :
    (es.foldl putSupervisor t).find? (·.id == id) =
      ((es.find? (·.id == id)).or (t.find? (·.id == id))) := by
  induction es generalizing t with
  | nil => rfl
  | cons e es ih =>
    rw [List.map_cons, List.nodup_cons] at h
    rw [List.foldl_cons, ih h.2, putSupervisor_find]
    by_cases he : e.id = id
    · have hn : es.find? (·.id == id) = none :=
        List.find?_eq_none.2 fun x hx => by
          simpa using fun hxi => h.1 (by rw [he, ← hxi]; exact List.mem_map_of_mem hx)
      simp [he, hn]
    · simp [he]

end Sys2Proof.Machine


/-! The bodies of the requests (chapters 1 to 7, 9 and 11): each keeps the laws of the queues, tables, banks and
conditions. -/

namespace Sys2Proof.Machine

/-! ### Lines and coupons -/

theorem onLine_tables {p : List Byte} {c : CtxNo} {body : Line → State → State × Answer} {s : State}
    (h : ∀ ln, TablesKept s (body ln s).1) : TablesKept s (onLine p c body s).1 := by
  unfold onLine
  split
  · exact .refl s
  · split
    · exact .refl s
    · exact h _

theorem changeLines_tables (c : CtxNo) (ls : List Line) (s : State) : TablesKept s (changeLines c ls s) :=
  edit_tables ..

theorem addLineBody_tables (p : List Byte) (c : CtxNo) (s : State) : TablesKept s (addLineBody p c s).1 := by
  unfold addLineBody
  split
  · exact .refl s
  · dsimp only
    split
    · exact .refl s
    · split
      · exact .refl s
      · exact edit_tables ..

theorem setQtyBody_tables (p : List Byte) (c : CtxNo) (ln : Line) (s : State) :
    TablesKept s (setQtyBody p c ln s).1 := by
  unfold setQtyBody
  dsimp only
  split
  · split
    · exact .refl s
    · split
      · exact .refl s
      · exact changeLines_tables ..
  · exact .refl s

theorem overrideBody_tables (p : List Byte) (c : CtxNo) (ln : Line) (s : State) :
    TablesKept s (overrideBody p c ln s).1 := by
  unfold overrideBody
  split
  · exact .refl s
  · dsimp only
    split
    · exact .refl s
    · split
      · exact .refl s
      · split
        · exact .refl s
        · split
          · exact .refl s
          · split
            · exact .refl s
            · exact changeLines_tables ..

/-- A lookup that refuses nothing finds no entry (R89). -/
theorem lookupRefusal_none {s : State} {serial : Nat} (h : lookupRefusal s serial = none) :
    serial = 0 ∨ s.claim serial = none := by
  unfold lookupRefusal at h
  split at h
  · next hz => exact .inl hz
  · split at h
    · next hn => exact .inr hn
    · split at h <;> cases h

/-- No claim can be made of a new serial in a table full of CLAIMED entries only (R90, R91). -/
theorem makeClaim_none {c : CtxNo} {serial : Nat} {s : State} (h : makeClaim c serial s = none) :
    96 ≤ s.claims.length ∧ s.oldestSpent = none := by
  unfold makeClaim at h
  dsimp only at h
  split at h
  · cases h
  · split at h
    · cases h
    · next hfull =>
      split at h
      · cases h
      · next ho => exact ⟨Nat.le_of_not_lt hfull, ho⟩

theorem claimCoupon_tables (k : Coupon) (c : CtxNo) (s : State) : TablesKept s (claimCoupon k c s).1 := by
  unfold claimCoupon
  split
  · exact .refl s
  · next hl =>
    split
    · next hn => exact raise_tables _ (by decide) fun _ => makeClaim_none hn
    · next hm => exact (makeClaim_tables hm (lookupRefusal_none hl)).trans (edit_tables ..)

theorem presentCouponBody_tables (p : List Byte) (c : CtxNo) (s : State) :
    TablesKept s (presentCouponBody p c s).1 := by
  unfold presentCouponBody
  split
  · exact .refl s
  · dsimp only
    split
    · exact .refl s
    · split
      · exact .refl s
      · exact claimCoupon_tables ..

theorem withdrawCouponBody_tables (p : List Byte) (c : CtxNo) (s : State) :
    TablesKept s (withdrawCouponBody p c s).1 := by
  unfold withdrawCouponBody
  dsimp only
  split
  · exact .refl s
  · exact (releaseSerial_tables ..).trans (edit_tables ..)

/-! ### Accounts -/

theorem attachBody_tables (p : List Byte) (c : CtxNo) (s : State) : TablesKept s (attachBody p c s).1 := by
  unfold attachBody
  split
  · exact .refl s
  · exact (removeReservation_tables c s).trans ((dropOther_tables ..).trans
      ((giveBalance_tables c _ _ _).trans (edit_tables ..)))

theorem detachBody_tables (c : CtxNo) (s : State) : TablesKept s (detachBody c s).1 := by
  unfold detachBody
  split
  · exact .refl s
  · exact (removeReservation_tables c s).trans ((dropReference_tables ..).trans (edit_tables ..))

theorem redeemBody_tables (p : List Byte) (c : CtxNo) (s : State) : TablesKept s (redeemBody p c s).1 := by
  unfold redeemBody
  dsimp only
  split
  · split
    · exact .refl s
    · split
      · exact .refl s
      · split
        · exact .refl s
        · exact (reserve_tables ..).trans (bumpRevision_tables ..)
  · exact .refl s

theorem cancelRedeemBody_tables (c : CtxNo) (s : State) : TablesKept s (cancelRedeemBody c s).1 := by
  unfold cancelRedeemBody
  split
  · exact .refl s
  · exact (removeReservation_tables c s).trans (bumpRevision_tables ..)

theorem accountBalanceBody_tables (p : List Byte) (s : State) : TablesKept s (accountBalanceBody p s).1 := by
  unfold accountBalanceBody
  dsimp only
  split
  · exact .refl s
  · split
    · exact .refl s
    · exact (changeAccount_tables (g := fun e => { e with balance := field p 5 4 }) _ (fun _ => rfl)
        fun _ => .refl _).trans (cutRule_tables ..)

/-! ### Baskets -/

theorem setTrackingBody_tables (p : List Byte) (l : LaneNo) (c : CtxNo) (s : State) :
    TablesKept s (setTrackingBody p l c s).1 := by
  unfold setTrackingBody
  split
  · exact .refl s
  · next m _ =>
    have hm : TablesKept s (s.setCtx c ((s.ctx c).withTracking m)) := setCtx_tables ..
    have hlane : TablesKept s ((s.setCtx c ((s.ctx c).withTracking m)).setLane l
        { (s.setCtx c ((s.ctx c).withTracking m)).lane l with tracking := m }) :=
      hm.trans (setLane_tables fun h => h)
    dsimp only
    split
    · exact hlane.trans (setCtx_tables ..)
    · exact .after (leaveWaiting_tables ..) (.after (setLane_tables fun h => h) (hlane.trans (setCtx_tables ..)))

theorem totalBody_tables (tag : Byte) (l : LaneNo) (c : CtxNo) (s : State) :
    TablesKept s (totalBody tag l c s).1 := by
  unfold totalBody
  split
  · exact setLane_tables fun h => h
  · exact .after (stopIdle_tables ..) (.after (setLane_tables fun h => h) (setCtx_tables ..))

theorem startStream_tables (tag : Byte) (l : LaneNo) (c : CtxNo) (head : List Byte) (n : Nat) (s : State) :
    TablesKept s (startStream tag l c head n s) :=
  .trans (t := s.setStream l (some ⟨c, tag, n, 1, crc32Fold crc32Init head⟩)) {} (placeReserved_tables ..)

theorem settle_tables (tag : Byte) (l : LaneNo) (c : CtxNo) (q : Quote) (s : State) :
    TablesKept s (settle tag l c q s) := by
  unfold settle
  dsimp only
  exact .after (startStream_tables ..) (.after (stopIdle_tables ..) (.after (setLane_tables fun h => h)
    (.after (convertPoints_tables ..) (spendClaimsOf_tables c s))))

theorem finalizeBody_tables (tag : Byte) (l : LaneNo) (c : CtxNo) (s : State) :
    TablesKept s (finalizeBody tag l c s).1 := by
  unfold finalizeBody
  split
  · exact settle_tables ..
  · exact .refl s

theorem openIn_tables (l : LaneNo) (c : CtxNo) {b : BankNo} {s : State} (h : (s.bank b).state = .current) :
    TablesKept s (openIn l c b s).1 :=
  .after (startIdle_tables ..) (.after (setLane_tables fun h => h) (.after (pinBank_tables h) (setCtx_tables s c _)))

theorem openBody_tables (l : LaneNo) (s : State) : TablesKept s (openBody l s).1 := by
  unfold openBody
  split
  · split
    · exact .refl s
    · split
      · next hb => exact openIn_tables l _ (currentBank_state hb)
      · exact .refl s
  · exact .refl s

theorem recallTo_tables (l : LaneNo) (c : CtxNo) (n : Nat) {b : BankNo} {s : State} (h : (s.bank b).state = .current) :
    TablesKept s (recallTo l c n b s).1 :=
  .after (startIdle_tables ..) (.after (bumpRevision_tables ..) (.after (setLane_tables fun h => h)
    (.after (pinBank_tables h) (.after (setCtx_tables ..) (.trans (t := unlist n s) {} (.refl _))))))

theorem recallBody_tables (p : List Byte) (l : LaneNo) (s : State) : TablesKept s (recallBody p l s).1 := by
  unfold recallBody
  dsimp only
  split
  · split
    · exact .refl s
    · split
      · exact .refl s
      · split
        · next hb => exact recallTo_tables l _ _ (currentBank_state hb)
        · exact .refl s
  · exact .refl s

theorem giveBack_tables (c : CtxNo) (s : State) : TablesKept s (giveBack c s) :=
  (removeClaimsOf_tables c s).trans ((removeReservation_tables c _).trans ((dropReferenceOf_tables c _).trans
    (releasePinOf_tables c _)))

theorem voidBasketBody_tables (l : LaneNo) (c : CtxNo) (s : State) : TablesKept s (voidBasketBody l c s).1 :=
  (giveBack_tables c s).trans ((freeCtx_tables c _).trans (clearLane_tables l _))

theorem parkReleased_tables (c : CtxNo) (s : State) : TablesKept s (parkReleased c s) := by
  unfold parkReleased
  refine .trans ?_ (releasePinOf_tables c _)
  split
  · exact (removeReservation_tables c s).trans (bumpRevision_tables ..)
  · exact .refl s

theorem parkUnder_tables (c : CtxNo) (n : Nat) (s : State) : TablesKept s (parkUnder c n s) := {}

theorem parkBasket_tablesKept (l : LaneNo) (c : CtxNo) (s : State) : TablesKept s (parkBasket l c s).1 := by
  rw [parkBasket_state]
  exact (parkReleased_tables c s).trans ((parkUnder_tables c _ _).trans (clearLane_tables l _))

/-! ### Device-level requests -/

theorem onStaging_tables {body : BankNo → State → State × Answer} {s : State}
    (h : ∀ b, s.stagingBank = some b → TablesKept s (body b s).1) : TablesKept s (onStaging body s).1 := by
  unfold onStaging
  split
  · next hb => exact h _ hb
  · exact .refl s

/-- A bank in STAGING or READY has no pins (R40). -/
theorem loading_pins {x : Bank} (h : BankLaw x) (hx : x.state = .staging ∨ x.state = .ready) : x.pins = 0 := by
  unfold BankLaw at h
  rcases hx with hx | hx <;> rw [hx] at h <;> exact h.1

theorem reevaluated_law {x : Bank} (hp : x.pins = 0) : BankLaw x.reevaluated := by
  obtain ⟨state, generation, pins, offers, closed, schedule⟩ := x
  subst hp
  unfold Bank.reevaluated
  cases closed <;> cases schedule <;> simp [BankLaw]

theorem reevaluated_state (x : Bank) : x.reevaluated.state = .staging ∨ x.reevaluated.state = .ready := by
  unfold Bank.reevaluated
  dsimp only
  split
  · exact .inr rfl
  · exact .inl rfl

theorem bankBeginBody_tables (p : List Byte) (s : State) : TablesKept s (bankBeginBody p s).1 := by
  have hlaw : ∀ x : Bank, BankLaw (x.begun (field p 0 2)) := fun _ => ⟨rfl, rfl⟩
  unfold bankBeginBody
  dsimp only
  split
  · exact .refl s
  · split
    · next b hb =>
      unfold State.bankToBegin at hb
      split at hb
      · next hst =>
        cases hb
        exact setBank_loading_tables (stagingBank_state hst) (fun _ => hlaw _) (.inr (.inl rfl))
      · next hst =>
        have hfree : (s.bank b).state = .free := by simpa using (bankIn_some.1 hb).1
        refine setBank_tables fun d _ _ hp => ⟨hlaw _, ?_, fun h => absurd (hfree.symm.trans h) (by decide)⟩
        obtain ⟨h1, h2⟩ := stagingBank_none.1 hst d
        revert hp h1 h2
        rw [hfree]
        cases (s.bank d).state <;> simp [pairOk, Bank.begun]
    · exact .refl s

theorem offerPutBody_tables (p : List Byte) {b : BankNo} {s : State} (hb : s.stagingBank = some b) :
    TablesKept s (offerPutBody p b s).1 := by
  unfold offerPutBody
  dsimp only
  split
  · split
    · exact .refl s
    · split
      · exact .refl s
      · have hst := stagingBank_state hb
        exact setBank_loading_tables hst (fun h => ⟨loading_pins (x := s.bank b) h hst, rfl⟩) (.inr (.inl rfl))
  · exact .refl s

theorem offersCloseBody_tables (p : List Byte) {b : BankNo} {s : State} (hb : s.stagingBank = some b) :
    TablesKept s (offersCloseBody p b s).1 := by
  unfold offersCloseBody
  dsimp only
  split
  · have hst := stagingBank_state hb
    exact setBank_loading_tables hst (fun h => reevaluated_law (loading_pins (x := s.bank b) h hst))
      (.inr (reevaluated_state _))
  · exact .refl s

theorem schedulePutBody_tables (p : List Byte) {b : BankNo} {s : State} (hb : s.stagingBank = some b) :
    TablesKept s (schedulePutBody p b s).1 := by
  unfold schedulePutBody
  split
  · exact .refl s
  · have hst := stagingBank_state hb
    exact setBank_loading_tables hst (fun h => reevaluated_law (loading_pins (x := s.bank b) h hst))
      (.inr (reevaluated_state _))

theorem bankAbandonBody_tables {b : BankNo} {s : State} (hb : s.stagingBank = some b) :
    TablesKept s (bankAbandonBody b s).1 :=
  setBank_loading_tables (stagingBank_state hb) (fun _ => emptied_law _) (.inl rfl)

theorem bankCommitBody_tables (s : State) : TablesKept s (bankCommitBody s).1 := by
  unfold bankCommitBody
  split
  · exact .refl s
  · next b hb =>
    split
    · exact .refl s
    · exact commitBank_tables (by simpa using (bankIn_some.1 hb).1)

theorem supervisors_ids (es : List (List Byte)) :
    (es.map supervisorOf).map (·.id) = es.map fun e => field e 0 3 := by
  rw [List.map_map]
  rfl

/-- A load stays within the table, and its entries have distinct ids (R103 to R105). -/
theorem authorityLoadBody_tables (p : List Byte) (s : State) : TablesKept s (authorityLoadBody p s).1 := by
  unfold authorityLoadBody
  dsimp only
  split
  · split
    · exact .refl s
    · next hr =>
      rw [supervisorsRefusal_eq] at hr
      obtain ⟨hd, -⟩ := entriesRefusal_none_keys hr
      rw [← supervisors_ids] at hd
      split
      · exact .refl s
      · next hroom =>
        exact
          { authority := fun h => by
              obtain ⟨-, hn⟩ := h
              exact ⟨by rw [putSupervisors_length hd]; omega, putSupervisors_nodup hn _⟩ }
  · exact .refl s

theorem authorityRemoveBody_tables (p : List Byte) (s : State) : TablesKept s (authorityRemoveBody p s).1 := by
  unfold authorityRemoveBody
  dsimp only
  split
  · exact .refl s
  · split
    · exact
        { authority := fun h => by
            obtain ⟨hl, hn⟩ := h
            exact ⟨Nat.le_trans (List.length_filter_le ..) hl, hn.sublist (List.filter_sublist.map _)⟩ }
    · exact .refl s

theorem authorityClearBody_tables (s : State) : TablesKept s (authorityClearBody s).1 :=
  { authority := fun _ => ⟨Nat.zero_le 24, List.nodup_nil⟩ }

theorem configureLanes_tables (s : State) : TablesKept s (configureLanes s) where
  passOvers h l := by rw [configureLanes_lane]; exact h l

theorem configureBody_tables (p : List Byte) (s : State) : TablesKept s (configureBody p s).1 := by
  unfold configureBody
  split
  · split
    · exact .refl s
    · exact .trans (t := { s with config := configOf p, sched := { s.sched with previous := .none } }) {}
        (configureLanes_tables _)
  · exact .refl s

/-- A day after the store day is an open day (R180). -/
theorem dayOpenBody_tables (p : List Byte) (s : State) : TablesKept s (dayOpenBody p s).1 := by
  unfold dayOpenBody
  dsimp only
  split
  · split
    · next hday =>
      exact .trans (t := { s with device := { s.device with day := field p 0 2 } })
        { banks := fun h => by
            obtain ⟨h0, h1, hp, hserve⟩ := h
            exact ⟨h0, h1, hp, fun hv => ⟨(hserve hv).1, Nat.lt_of_le_of_lt (Nat.zero_le _) hday⟩⟩ }
        ((removeClaims_tables ..).trans (updateServing_tables _))
    · exact .refl s
  · exact .refl s

theorem clearConditionsBody_tables (p : List Byte) (s : State) : TablesKept s (clearConditionsBody p s).1 := by
  unfold clearConditionsBody
  split
  · exact clearClasses_tables ..
  · exact .refl s

theorem setMaskBody_tables (p : List Byte) (s : State) : TablesKept s (setMaskBody p s).1 := by
  unfold setMaskBody
  split
  · exact setMask_tables ..
  · exact .refl s

end Sys2Proof.Machine


/-! The laws of the queues, tables, banks and conditions through every command: the requests with their takes, the
link, the scheduler, the timers and the resets, and the step by the command at its front. -/

namespace Sys2Proof.Machine

/-! ### Requests with their takes and replies -/

/-- An operation keeps the laws, and that a claim waits on the slot request list only while no slot is free (R169). -/
structure StepKept (s t : State) : Prop where
  tables : TablesKept s t
  requests : RequestsSound s → RequestsSound t

theorem StepKept.refl (s : State) : StepKept s s := ⟨.refl s, fun h => h⟩

/-- The service of the free slots at the end of a step makes the slot request list sound (R169). -/
theorem TablesKept.settled {s t : State} (h : TablesKept s t) : StepKept s (settleClaims t) where
  tables := h.trans settleClaims_tables
  requests hr := (settleClaims_served t).sound (h.requests hr.1)

/-- An operation that leaves the claims and the number of free slots as they are. -/
theorem TablesKept.sameSlots {s t : State} (h : TablesKept s t) (hr : t.mainQ.requests = s.mainQ.requests)
    (hs : t.mainQ.served = s.mainQ.served) (hf : t.freeSlots = s.freeSlots) : StepKept s t where
  tables := h
  requests hs' := by
    unfold RequestsSound
    rw [hr, hs, hf]
    exact hs'

/-- Every state a step answers with keeps the laws. -/
def AnswerKeepsTables (s : State) (o : Out) : Prop := ∀ t, o = .next t → StepKept s t

theorem AnswerKeepsTables.next {s t : State} (h : StepKept s t) : AnswerKeepsTables s (.next t) := by
  rintro _ ⟨⟩; exact h

theorem whenLive_keepsTables {f : State → State} {s : State} (hf : StepKept s (f s)) :
    AnswerKeepsTables s (whenLive f s) := by
  unfold whenLive
  split
  · exact .next (.refl s)
  · exact .next hf

theorem laneTaken_tables (f : Frame) (l : LaneNo) (s : State) : TablesKept s (laneTaken f l s) := by
  have ht : TablesKept s (touchIdle l (removeFrame .pool f (reserveSlot (useSlot .laneTake s)))) :=
    .after (touchIdle_tables ..) (.after (removeFrame_tables ..) (.after (reserveSlot_tables _) (useSlot_tables ..)))
  exact ht.trans (touchReservation_tables ..)

/-- A reply placed in the reserved slot. -/
theorem answerLane_tables (k : Byte) (r : Req) (l : LaneNo) (x : State × Answer) :
    TablesKept x.1 (answerLane k r l x) := by
  unfold answerLane
  split
  · exact placeReserved_tables ..
  · exact .refl _

theorem answerBulk_tables (k : Byte) (r : Req) (x : State × Answer) : TablesKept x.1 (answerBulk k r x) := by
  unfold answerBulk
  split
  · exact placeReserved_tables ..
  · exact .refl _

theorem laneBody_tables {gate : LaneState → Option OutcomeCode} {len : Nat} {r : Req} {l : LaneNo}
    {body : State → State × Answer} {u : State} (h : TablesKept u (body u).1) :
    TablesKept u (laneBody gate len r l body u).1 := by
  unfold laneBody
  split
  · exact .refl _
  · split
    · exact .refl _
    · split
      · exact h
      · exact .refl _

/-- A lane request keeps the laws when its body does. -/
theorem laneRequest_keepsTables {k : Byte} {gate : LaneState → Option OutcomeCode} {len : Nat} {r : Req}
    {body : LaneNo → State → State × Answer} {s : State} (hb : ∀ l u, TablesKept u (body l u).1) :
    AnswerKeepsTables s (laneRequest k gate len r body s) := by
  refine whenLive_keepsTables ?_
  split
  · split
    · next ht =>
      rw [takeBulk_eq ht]
      exact ((bulkTaken_tables ..).trans (answerBulk_tables k r (_, _))).settled
    · exact .refl _
  · split
    · split
      · next ht =>
        rw [takeLane_eq ht]
        exact ((laneTaken_tables ..).trans ((laneBody_tables (hb _ _)).trans (answerLane_tables ..))).settled
      · exact .refl _
    · exact .refl _

/-- A bulk request keeps the laws when its body does. -/
theorem bulkRequest_keepsTables {k : Byte} {r : Req} {body : State → State × Answer} {s : State}
    (hb : ∀ u, TablesKept u (body u).1) : AnswerKeepsTables s (bulkRequest k r body s) := by
  refine whenLive_keepsTables ?_
  split
  · split
    · next ht =>
      rw [takeBulk_eq ht]
      exact ((bulkTaken_tables ..).trans ((hb _).trans (answerBulk_tables ..))).settled
    · exact .refl _
  · split
    · split
      · next ht =>
        rw [takeLane_eq ht]
        exact ((laneTaken_tables ..).trans (answerLane_tables k r _ (_, _))).settled
      · exact .refl _
    · exact .refl _

/-- A request on the basket of a lane. -/
theorem basketRequest_keepsTables {k : Byte} {gate : LaneState → Option OutcomeCode} {len : Nat} {r : Req}
    {body : LaneNo → CtxNo → State → State × Answer} {s : State} (hb : ∀ l c u, TablesKept u (body l c u).1) :
    AnswerKeepsTables s (laneRequest k gate len r (fun l => onCtx l (body l)) s) := by
  refine laneRequest_keepsTables fun l u => ?_
  unfold onCtx
  split
  · exact hb ..
  · exact .refl _

/-- A bulk request that checks its length before its body (R188). -/
theorem lengthRequest_keepsTables {k : Byte} {len : Nat} {r : Req} {body : State → State × Answer} {s : State}
    (hb : ∀ u, TablesKept u (body u).1) : AnswerKeepsTables s (bulkRequest k r (withLength len r body) s) := by
  refine bulkRequest_keepsTables fun u => ?_
  unfold withLength
  split
  · exact hb u
  · exact .refl _

/-- A bulk request on the bank being loaded. -/
theorem stagingRequest_keepsTables {k : Byte} {len : Nat} {r : Req} {body : BankNo → State → State × Answer} {s : State}
    (hb : ∀ b u, u.stagingBank = some b → TablesKept u (body b u).1) :
    AnswerKeepsTables s (bulkRequest k r (withLength len r (onStaging body)) s) :=
  lengthRequest_keepsTables fun u => onStaging_tables fun b => hb b u

/-! ### The link (R164 to R174) -/

/-- A frame joins its queue only below the capacity (R167). -/
theorem storeFrame_tables (q : QueueId) (f : Frame) (s : State) : TablesKept s (storeFrame q f s) := by
  unfold storeFrame
  dsimp only
  split
  · next hroom =>
    have hset : TablesKept s (s.setInbound q { s.inbound q with frames := (s.inbound q).frames ++ [f] }) :=
      setInbound_tables (.inr (by simpa using hroom))
    refine hset.trans ?_
    unfold testCongestion
    dsimp only
    split
    · exact .after (makeHold_tables ..) (setInbound_tables (.inl (Nat.le_refl _)))
    · exact .refl _
  · exact raise_other_tables s _ (by decide)

theorem toHunt_tables (s : State) : TablesKept s (toHunt s) := {}

theorem arrive_tables (f : Frame) (s : State) : TablesKept s (arrive f s) := by
  unfold arrive
  split
  · unfold actHold
    split
    · exact {}
    · exact {}
  · exact storeFrame_tables ..

theorem completeFrame_tables (got : List Byte) (s : State) : TablesKept s (completeFrame got s) := by
  unfold completeFrame
  split
  · exact (toHunt_tables s).trans (arrive_tables ..)
  · exact (toHunt_tables s).trans (linkFault_tables ..)

theorem receiveByte_tables (b : Byte) (s : State) : TablesKept s (receiveByte b s) := by
  have hin : ∀ got, TablesKept s (toAssemble got s) := fun _ => {}
  unfold receiveByte
  split
  · split
    · exact hin _
    · exact .refl s
  · unfold gather
    split
    · exact (toHunt_tables s).trans (linkFault_tables ..)
    · split
      · exact completeFrame_tables ..
      · exact hin _

/-- A frame of the main queue in transmission keeps its slot until it is sent (R168). -/
theorem startMain_stepKept {s : State} (hb : s.link.tx = none) : StepKept s (startMain s) := by
  unfold startMain
  split
  · exact .refl s
  · next f fs hf =>
    refine TablesKept.sameSlots { started := fun _ _ h => by cases h } rfl rfl ?_
    simp only [State.freeSlots, State.occupied, beginFrame, hf, hb, List.length_cons, if_pos]

theorem startNotice_stepKept {s : State} (hb : s.link.tx = none) : StepKept s (startNotice s) := by
  unfold startNotice
  split
  · exact .refl s
  · next c cs hn =>
    refine TablesKept.sameSlots { started := fun _ _ h => by cases h } rfl rfl ?_
    simp [State.freeSlots, State.occupied, beginFrame, hb]

theorem startLater_stepKept {s : State} (hb : s.link.tx = none) : StepKept s (startLater s) := by
  unfold startLater
  split
  · next h hs hd =>
    refine TablesKept.sameSlots { holds := fun hn => ?_ } rfl rfl ?_
    · unfold HoldsDistinct at hn
      rw [hd] at hn
      exact hn.of_cons
    · simp [State.freeSlots, State.occupied, beginFrame, hb]
  · split
    · exact startMain_stepKept hb
    · exact startNotice_stepKept hb
    · exact .refl s

theorem startNext_stepKept {s : State} (hb : s.boundary = true) : StepKept s (startNext s) := by
  have htx : s.link.tx = none := by
    unfold State.boundary at hb
    simp only [Bool.and_eq_true, Option.isNone_iff_eq_none] at hb
    exact hb.1.1
  unfold startNext startFirst
  split
  · split
    · exact .refl s
    · exact startMain_stepKept htx
  · exact startLater_stepKept htx

/-- The end of a frame frees a slot for a frame of the main queue only, and that end serves the claims (R168, R169). -/
theorem finishFrame_stepKept {x : Transmission} {s : State} (hx : s.link.tx = some x) : StepKept s (finishFrame x s) := by
  have hend : TablesKept s (endFrame s) := {}
  have hslots : x.source ≠ .main → (endFrame s).freeSlots = s.freeSlots := fun hm => by
    simp [State.freeSlots, State.occupied, endFrame, hx, hm]
  unfold finishFrame
  split
  · refine (hend.trans ?_).settled
    unfold noteRestart
    split
    · exact {}
    · exact .refl _
  · next c hc =>
    refine (hend.trans { notices := fun h => ?_ }).sameSlots rfl rfl (hslots (by rw [hc]; nofun))
    exact h.sublist List.erase_sublist
  · next h hh =>
    have hf := hslots (by rw [hh]; nofun)
    unfold holdSent
    dsimp only
    split
    · refine TablesKept.sameSlots (.after (setInbound_tables (.inl (Nat.le_refl _))) hend) ?_ ?_ (.trans ?_ hf)
      all_goals cases h.scope.queue <;> rfl
    · exact hend.sameSlots rfl rfl hf

theorem renewNow_stepKept (q : QueueId) (s : State) : StepKept s (renewNow q s) := by
  have hset : TablesKept s (s.setInbound q { s.inbound q with renew := none }) :=
    setInbound_tables (.inl (Nat.le_refl _))
  unfold renewNow
  dsimp only
  split
  · refine (hset.trans (makeHold_tables ..)).sameSlots ?_ ?_ ?_
    all_goals cases q <;> rfl
  · refine hset.sameSlots ?_ ?_ ?_
    all_goals cases q <;> rfl

/-! ### The scheduler and the resolution (R137 to R144) -/

/-- A pass-over count stops at 4 (R139). -/
theorem passAll_tables (ls : List LaneNo) (s : State) : TablesKept s (ls.foldl (fun s l => passOver l s) s) := by
  induction ls generalizing s with
  | nil => exact .refl s
  | cons l ls ih => exact (setLane_tables fun _ => Nat.min_le_left ..).trans (ih _)

theorem passAll_link (ls : List LaneNo) (s : State) :
    (ls.foldl (fun s l => passOver l s) s).mainQ = s.mainQ ∧ (ls.foldl (fun s l => passOver l s) s).link = s.link := by
  induction ls generalizing s with
  | nil => exact ⟨rfl, rfl⟩
  | cons l ls ih => exact ih _

theorem freeSlots_congr {s t : State} (hq : t.mainQ = s.mainQ) (hl : t.link = s.link) : t.freeSlots = s.freeSlots := by
  unfold State.freeSlots State.occupied
  rw [hq, hl]

/-- An operation that leaves the main queue and the link port as they are. -/
theorem TablesKept.sameLink {s t : State} (h : TablesKept s t) (hq : t.mainQ = s.mainQ) (hl : t.link = s.link) :
    StepKept s t := h.sameSlots (by rw [hq]) (by rw [hq]) (freeSlots_congr hq hl)

theorem grantTo_stepKept (l : LaneNo) (c : CtxNo) (a : Attachment) (s : State) : StepKept s (grantTo l c a s) := by
  unfold grantTo
  dsimp only
  have hpass := passAll_tables (s.waitingLanes.filter (· != l)) s
  obtain ⟨hq, hl⟩ := passAll_link (s.waitingLanes.filter (· != l)) s
  generalize List.foldl (fun s l => passOver l s) s (s.waitingLanes.filter (· != l)) = u at hpass hq hl ⊢
  have hset : TablesKept s (u.setLane l { u.lane l with passOver := 0 }) :=
    hpass.trans (setLane_tables fun _ => Nat.zero_le 4)
  exact (hset.trans {}).sameLink hq hl

/-- A SUBTOTAL replaced in its place leaves STARTED at the front of the queue (R143, R182). -/
theorem replaceSubtotal_tables (l : LaneNo) (c : CtxNo) (inc : Counter) (f : Frame) (s : State) :
    TablesKept s (replaceSubtotal l c inc f s) where
  started h hlow hsent := by
    obtain ⟨cause, rate, hh⟩ := h hlow hsent
    refine ⟨cause, rate, ?_⟩
    unfold replaceSubtotal
    rw [List.head?_map, hh]
    rfl

theorem setOwed_tables (l : LaneNo) (b : Bool) (s : State) : TablesKept s (setOwed l b s) :=
  setLane_tables fun h => h

theorem deliver_tables (a : Attachment) (c : CtxNo) (q : Quote) (s : State) : TablesKept s (deliver a c q s) := by
  unfold deliver
  split
  · unfold deliverQuote
    exact .after (startIdle_tables ..) (.after (setLane_tables fun h => h) (placeReserved_tables ..))
  · split
    · unfold deliverSubtotal
      dsimp only
      split
      · exact replaceSubtotal_tables ..
      · split
        · exact (placeFrame_tables ..).trans (setOwed_tables ..)
        · exact setOwed_tables ..
    · exact .refl s

theorem dealWith_tables (q : Snapshot) (s : State) : TablesKept s (dealWith q s) := by
  unfold dealWith
  dsimp only
  split
  · exact .refl s
  · split
    · exact .refl s
    · exact .refl s
    · split
      · split
        · exact setCtx_tables ..
        · exact .refl s
      · exact .after (deliver_tables ..) (setCtx_tables ..)

theorem endFlight_tables (f : Flight) (s : State) : TablesKept s (endFlight f s) := {}

/-! ### Settlement, parking and the timers (R117, R150, R151, R155, R159, R160) -/

theorem placeSettleFrame_tables (l : LaneNo) (st : Stream) (q : Quote) (s : State) :
    TablesKept s (placeSettleFrame l st q s) :=
  ((useSlot_tables (.stream l) s).trans (placeFrame_tables ..)).trans {}

theorem endStream_tables (l : LaneNo) (st : Stream) (s : State) : TablesKept s (endStream l st s) := by
  have hpin : ∀ f, TablesKept s (releasePinOf st.ctx (placeFrame f (useSlot (.stream l) s))) := fun f =>
    (useSlot_tables ..).trans ((placeFrame_tables f _).trans (releasePinOf_tables ..))
  exact ((hpin _).trans {}).trans ((freeCtx_tables st.ctx ((releasePinOf st.ctx (placeFrame
    (settleFrameOf l st 0x67 (endPayload st)) (useSlot (.stream l) s))).setStream l none)).trans (clearLane_tables ..))

theorem expireParked_tables (c : CtxNo) (n : Nat) (s : State) : TablesKept s (expireParked c n s) := by
  have hunlist : ∀ u, TablesKept u (unlist n u) := fun _ => {}
  unfold expireParked
  dsimp only
  exact .after (raise_other_tables _ _ (by decide)) (.after (freeCtx_tables c _) (.after (hunlist _)
    (.after (dropReferenceOf_tables ..) (removeClaimsOf_tables c s))))

theorem expireParked_stepKept (c : CtxNo) (n : Nat) (s : State) : StepKept s (expireParked c n s) :=
  (expireParked_tables c n s).sameLink (by simp [expireParked, unlist]) (by simp [expireParked, unlist])

theorem expireReservation_tables (c : CtxNo) (s : State) : TablesKept s (expireReservation c s) :=
  (removeReservation_tables c s).trans ((bumpRevision_tables ..).trans (raise_other_tables (c := .holdExpired) _ _ (by decide)))

theorem warnIdle_stepKept (l : LaneNo) (s : State) : StepKept s (warnIdle l s) :=
  ((startIdle_tables 1 l s).trans (raise_other_tables (c := .laneIdle) _ _ (by decide))).sameLink (by simp) (by simp)

theorem autoPark_tables (l : LaneNo) (c : CtxNo) (s : State) : TablesKept s (autoPark l c s) := by
  unfold autoPark
  dsimp only
  exact (parkBasket_tablesKept l c s).trans (raise_other_tables _ _ (by decide))

theorem queryBasketBody_tables (p : List Byte) (c : CtxNo) (s : State) :
    TablesKept s (queryBasketBody p c s).1 := by
  unfold queryBasketBody
  dsimp only
  split <;> exact .refl s

/-! ### Resets (R162, R182) -/

/-- A hard reset leaves every law true, STARTED at the front of the main queue. -/
theorem hardReset_stepKept (straps : BitVec 2) (s : State) : StepKept s (started s.hardCause straps (hardValues s)) where
  tables :=
    { inbound := fun _ => reset_queues.1
      notices := fun _ => List.nodup_nil
      holds := fun _ => List.nodup_nil
      started := fun _ _ _ => ⟨_, _, rfl⟩
      requests := fun _ => List.nodup_nil
      authority := fun _ => reset_tables.2.1
      accounts := fun _ => reset_tables.2.2
      passOvers := fun _ => reset_passOvers
      fault := fun _ => reset_fault
      claims := fun _ => reset_tables.1
      banks := fun _ => reset_banks }
  requests _ := ⟨List.nodup_nil, fun h => absurd rfl h⟩

/-- RESETn low leaves every law true: no STARTED is due while it is low. -/
theorem resetnLow_stepKept (s : State) : AnswerKeepsTables s (execResetnLow s) :=
  .next
    { tables :=
        { inbound := fun _ => reset_queues.1
          notices := fun _ => List.nodup_nil
          holds := fun _ => List.nodup_nil
          started := fun _ h => by cases h
          requests := fun _ => List.nodup_nil
          authority := fun _ => reset_tables.2.1
          accounts := fun _ => reset_tables.2.2
          passOvers := fun _ => reset_passOvers
          fault := fun _ => reset_fault
          claims := fun _ => reset_tables.1
          banks := fun _ => reset_banks }
      requests := fun _ => ⟨List.nodup_nil, fun h => absurd rfl h⟩ }

/-- What a soft reset leaves before the lanes follow the kept configuration (R1, R182). -/
def softBlocks (s : State) : State :=
  { hardValues s with
    config := s.config, authority := s.authority
    conds := { State.reset.conds with mask := s.conds.mask } }

theorem softBlocks_tables (straps : BitVec 2) (s : State) : TablesKept s (started 3 straps (softBlocks s)) where
  inbound _ := reset_queues.1
  notices _ := List.nodup_nil
  holds _ := List.nodup_nil
  started _ _ _ := ⟨_, _, rfl⟩
  requests _ := List.nodup_nil
  accounts _ := reset_tables.2.2
  passOvers _ := reset_passOvers
  fault _ := reset_fault
  claims _ := by
    obtain ⟨hn, hd, hp⟩ := reset_tables.1
    exact ⟨hn, hd, hp⟩
  banks _ := reset_banks

theorem softReset_stepKept (straps : BitVec 2) (s : State) : StepKept s (started 3 straps (softValues s)) where
  tables := (softBlocks_tables straps s).trans (configureLanes_tables _)
  requests _ := ⟨List.nodup_nil, fun h => absurd rfl h⟩

/-! ### The step -/

/-- A step the device makes on a condition, and that leaves the state without it. -/
theorem dueStep_keepsTables {p : State → Prop} [∀ s, Decidable (p s)] {f : State → State} {s : State}
    (hf : p s → StepKept s (f s)) : AnswerKeepsTables s (whenLive (fun s => if p s then f s else s) s) := by
  refine whenLive_keepsTables ?_
  split
  · next hp => exact hf hp
  · exact .refl _

theorem byte_keepsTables (b : Byte) (s : State) :
    AnswerKeepsTables s (whenLive (fun s => settleClaims (receiveByte b s)) s) :=
  whenLive_keepsTables (receiveByte_tables b s).settled

theorem execHold_keepsTables (r : Req) (s : State) : AnswerKeepsTables s (execHold r s) :=
  whenLive_keepsTables (f := fun s => settleClaims (arrive (r.frame kindHold) s)) (arrive_tables ..).settled

theorem execUnknownKindAnswer_keepsTables (f : Frame) (s : State) :
    AnswerKeepsTables s (execUnknownKindAnswer f s) := by
  refine whenLive_keepsTables ?_
  split
  · split
    · next ht =>
      rw [takeBulk_eq ht]
      exact ((bulkTaken_tables ..).trans (placeReserved_tables ..)).settled
    · exact .refl _
  · exact .refl _

theorem execGapFault_keepsTables (s : State) : AnswerKeepsTables s (execGapFault s) := by
  unfold execGapFault
  refine dueStep_keepsTables fun _ => ((toHunt_tables s).trans (linkFault_tables ..)).sameSlots ?_ ?_ ?_
  · simp [linkFault, toHunt]
  · simp [linkFault, toHunt]
  · simp [State.freeSlots, State.occupied, linkFault, toHunt]

theorem execTransmitEnd_keepsTables (s : State) : AnswerKeepsTables s (execTransmitEnd s) := by
  refine whenLive_keepsTables ?_
  split
  · next hx => exact finishFrame_stepKept hx
  · exact .refl _

theorem execOutputHoldExpiry_keepsTables (s : State) : AnswerKeepsTables s (execOutputHoldExpiry s) := by
  unfold execOutputHoldExpiry
  exact dueStep_keepsTables fun _ => TablesKept.sameSlots {} rfl rfl rfl

theorem execResolveGrant_keepsTables (s : State) : AnswerKeepsTables s (execResolveGrant s) := by
  refine whenLive_keepsTables ?_
  split
  · exact grantTo_stepKept ..
  · exact .refl _

theorem execResolutionComplete_keepsTables (s : State) : AnswerKeepsTables s (execResolutionComplete s) := by
  refine whenLive_keepsTables ?_
  split
  · exact ((endFlight_tables ..).trans (dealWith_tables ..)).settled
  · exact .refl _

theorem execOwedSubtotal_keepsTables (l : LaneNo) (s : State) : AnswerKeepsTables s (execOwedSubtotal l s) := by
  refine whenLive_keepsTables ?_
  split
  · split
    · exact ((useSlot_tables ..).trans ((placeFrame_tables ..).trans (setOwed_tables ..))).settled
    · exact .refl _
  · exact .refl _

theorem execSettlementFrame_keepsTables (l : LaneNo) (s : State) :
    AnswerKeepsTables s (execSettlementFrame l s) := by
  refine whenLive_keepsTables ?_
  split
  · split
    · exact (placeSettleFrame_tables ..).settled
    · exact .refl _
  · exact .refl _

theorem execSettleEnd_keepsTables (l : LaneNo) (s : State) : AnswerKeepsTables s (execSettleEnd l s) := by
  refine whenLive_keepsTables ?_
  split
  · split
    · exact (endStream_tables ..).settled
    · exact .refl _
  · exact .refl _

theorem execAutoPark_keepsTables (l : LaneNo) (s : State) : AnswerKeepsTables s (execAutoPark l s) := by
  refine whenLive_keepsTables ?_
  split
  · split
    · exact (autoPark_tables ..).settled
    · exact .refl _
  · exact .refl _

theorem execParkExpiry_keepsTables (c : CtxNo) (s : State) : AnswerKeepsTables s (execParkExpiry c s) := by
  refine whenLive_keepsTables ?_
  split
  · exact expireParked_stepKept ..
  · exact .refl _

theorem exec_keepsTables (i : Instr) (s : State) : AnswerKeepsTables s (exec i s) := by
  cases i with
  | openBasket r => exact laneRequest_keepsTables fun _ _ => openBody_tables ..
  | addLine r => exact basketRequest_keepsTables fun _ _ _ => addLineBody_tables ..
  | setQty r => exact basketRequest_keepsTables fun _ _ _ => onLine_tables fun _ => setQtyBody_tables ..
  | voidLine r => exact basketRequest_keepsTables fun _ _ _ => onLine_tables fun _ => changeLines_tables ..
  | override r => exact basketRequest_keepsTables fun _ _ _ => onLine_tables fun _ => overrideBody_tables ..
  | clearOverride r => exact basketRequest_keepsTables fun _ _ _ => onLine_tables fun _ => changeLines_tables ..
  | presentCoupon r => exact basketRequest_keepsTables fun _ _ _ => presentCouponBody_tables ..
  | withdrawCoupon r => exact basketRequest_keepsTables fun _ _ _ => withdrawCouponBody_tables ..
  | attachAccount r => exact basketRequest_keepsTables fun _ _ _ => attachBody_tables ..
  | detachAccount r => exact basketRequest_keepsTables fun _ _ _ => detachBody_tables ..
  | redeem r => exact basketRequest_keepsTables fun _ _ _ => redeemBody_tables ..
  | cancelRedeem r => exact basketRequest_keepsTables fun _ _ _ => cancelRedeemBody_tables ..
  | setTracking r => exact basketRequest_keepsTables fun _ _ _ => setTrackingBody_tables ..
  | total r => exact basketRequest_keepsTables fun _ _ _ => totalBody_tables ..
  | finalize r => exact basketRequest_keepsTables fun _ _ _ => finalizeBody_tables ..
  | voidBasket r => exact basketRequest_keepsTables fun _ _ _ => voidBasketBody_tables ..
  | park r => exact basketRequest_keepsTables fun _ _ _ => parkBasket_tablesKept ..
  | recallBasket r => exact laneRequest_keepsTables fun _ _ => recallBody_tables ..
  | queryBasket r => exact basketRequest_keepsTables fun _ _ _ => queryBasketBody_tables ..
  | bankBegin r => exact lengthRequest_keepsTables fun _ => bankBeginBody_tables ..
  | offerPut r => exact bulkRequest_keepsTables fun _ => onStaging_tables fun _ h => offerPutBody_tables _ h
  | offersClose r => exact stagingRequest_keepsTables fun _ _ h => offersCloseBody_tables _ h
  | schedulePut r => exact stagingRequest_keepsTables fun _ _ h => schedulePutBody_tables _ h
  | bankCommit r => exact lengthRequest_keepsTables fun _ => bankCommitBody_tables _
  | bankAbandon r => exact stagingRequest_keepsTables fun _ _ h => bankAbandonBody_tables h
  | authorityLoad r => exact bulkRequest_keepsTables fun _ => authorityLoadBody_tables ..
  | authorityRemove r => exact lengthRequest_keepsTables fun _ => authorityRemoveBody_tables ..
  | authorityClear r => exact lengthRequest_keepsTables fun _ => authorityClearBody_tables _
  | accountBalance r => exact lengthRequest_keepsTables fun _ => accountBalanceBody_tables ..
  | queryAccount r => exact lengthRequest_keepsTables fun u => by rw [queryAccountBody_state]; exact .refl u
  | queryClaim r => exact lengthRequest_keepsTables fun u => by rw [queryClaimBody_state]; exact .refl u
  | configure r => exact lengthRequest_keepsTables fun _ => configureBody_tables ..
  | dayOpen r => exact lengthRequest_keepsTables fun _ => dayOpenBody_tables ..
  | clearConditions r => exact lengthRequest_keepsTables fun _ => clearConditionsBody_tables ..
  | setMask r => exact lengthRequest_keepsTables fun _ => setMaskBody_tables ..
  | identify r => exact lengthRequest_keepsTables fun u => .refl u
  | status r => exact lengthRequest_keepsTables fun u => by rw [statusBody_state]; exact .refl u
  | restart r => exact lengthRequest_keepsTables fun _ => {}
  | unknownKindAnswer f => exact execUnknownKindAnswer_keepsTables f s
  | hold r => exact execHold_keepsTables r s
  | frameComplete b => exact byte_keepsTables b s
  | lengthFault b => exact byte_keepsTables b s
  | gapFault => exact execGapFault_keepsTables s
  | transmitStart => unfold exec execTransmitStart; exact dueStep_keepsTables startNext_stepKept
  | transmitEnd => exact execTransmitEnd_keepsTables s
  | renewExpiry q => unfold exec execRenewExpiry; exact dueStep_keepsTables fun _ => renewNow_stepKept q s
  | outputHoldExpiry => exact execOutputHoldExpiry_keepsTables s
  | resolveGrant => exact execResolveGrant_keepsTables s
  | resolutionComplete => exact execResolutionComplete_keepsTables s
  | owedSubtotal l => exact execOwedSubtotal_keepsTables l s
  | settlementFrame l => exact execSettlementFrame_keepsTables l s
  | settleEnd l => exact execSettleEnd_keepsTables l s
  | reservationExpiry c =>
    unfold exec execReservationExpiry
    exact dueStep_keepsTables fun _ => (expireReservation_tables c s).settled
  | idleWarning l => unfold exec execIdleWarning; exact dueStep_keepsTables fun _ => warnIdle_stepKept l s
  | autoPark l => exact execAutoPark_keepsTables l s
  | parkExpiry c => exact execParkExpiry_keepsTables c s
  | hardReset x => exact .next (hardReset_stepKept x s)
  | softReset x => unfold exec execSoftReset; exact dueStep_keepsTables fun _ => softReset_stepKept x s
  | byteReceived b => exact byte_keepsTables b s
  | resetnLow => exact resetnLow_stepKept s

/-- A step keeps the laws; the millisecond of an empty command queue writes none of their fields. -/
theorem step_keepsTables {s t : State} (h : step s = .next t) : StepKept s t := by
  unfold step at h
  split at h
  · cases h
    exact TablesKept.sameSlots {} rfl rfl rfl
  · next i rest _ =>
    obtain ⟨htables, hrequests⟩ := exec_keepsTables i { s with pending := rest } t h
    have hpop : TablesKept s { s with pending := rest } := {}
    exact ⟨hpop.trans htables, hrequests⟩

/-- Settles O4: each law through every command, and the slot request list by the service at the end of a step. -/
theorem queueAndTableBoundsAreKept : Obligations.QueueAndTableBoundsAreKept := by
  unfold Obligations.QueueAndTableBoundsAreKept
  have hk : ∀ {s t : State}, step s = .next t → TablesKept s t := fun h => (step_keepsTables h).tables
  exact ⟨fun _ _ h hs => (hk hs).inbound h, fun _ _ h hs => (hk hs).notices h, fun _ _ h hs => (hk hs).holds h,
    fun _ _ h hs => (hk hs).started h, fun _ _ h hs => (step_keepsTables hs).requests h,
    fun _ _ h hs => (hk hs).authority h, fun _ _ h hs => (hk hs).accounts h, fun _ _ h hs => (hk hs).passOvers h,
    fun _ _ h hs => (hk hs).fault h⟩

/-- Settles O8: the claim table keeps its bound, its serials and the meaning of CLAIMS_FULL through every command. -/
theorem claimTableIsKept : Obligations.ClaimTableIsKept :=
  fun _ _ h hs => (step_keepsTables hs).tables.claims h

/-- Settles O9: the fields of each bank, the pair of their states and SERVING through every command. -/
theorem bankTableIsKept : Obligations.BankTableIsKept :=
  fun _ _ h hs => (step_keepsTables hs).tables.banks h

end Sys2Proof.Machine


/-! The requests on the bank table (R41, R42, R47 to R51): each by the take every bulk request shares, the equation of its
body and the write of its bank. -/

namespace Sys2Proof.Machine

/-! ### A bulk request that writes tables -/

/-- A bulk request answered with fields of its own: its body leaves the state `v`, which is `s'` but for what the take
itself changes. -/
theorem bulkRequest_wrote {s s' v : State} {k : Byte} {r : Req} {o : OutcomeCode} {fields : List Byte}
    (h0 : r.lane = 0) (ht : TakesBulk s (r.frame k)) (body : State → State × Answer)
    (he : body (bulkTaken (r.frame k) s) = (v, .reply o fields))
    (hv : v = { s' with
      bulk := (bulkTaken (r.frame k) s).bulk, link := (bulkTaken (r.frame k) s).link
      mainQ := (bulkTaken (r.frame k) s).mainQ })
    (hs : s'.link = s.link ∧ s'.mainQ = s.mainQ ∧ s'.draws = s.draws) :
    ∃ t, bulkRequest k r body s = .next t ∧ BulkAnswered s t k r o fields ∧ BulkFrame s' t := by
  obtain ⟨hlink, hqueue, hdraws⟩ := hs
  refine ⟨_, bulkRequest_takes h0 ht body, ?_⟩
  rw [he, answerBulk_reply]
  refine ⟨bulkAnswered_of (by rw [hv]) (by rw [hv]) (by rw [hv]), ?_⟩
  exact bulkFrame_body (s := s) (f := r.frame k) _ (by rw [hv]) (by rw [hv]) (by rw [hv])
    (by rw [hv]; exact hdraws) hlink hqueue hdraws

theorem BulkFrame.banks {s t : State} (h : BulkFrame s t) : t.banks = s.banks := (congrArg State.banks h.1 :)

theorem BulkFrame.device {s t : State} (h : BulkFrame s t) : t.device = s.device := (congrArg State.device h.1 :)

theorem BulkFrame.authority {s t : State} (h : BulkFrame s t) : t.authority = s.authority :=
  (congrArg State.authority h.1 :)

theorem BulkFrame.claims {s t : State} (h : BulkFrame s t) : t.claims = s.claims := (congrArg State.claims h.1 :)

theorem BulkFrame.conds {s t : State} (h : BulkFrame s t) : t.conds = s.conds := (congrArg State.conds h.1 :)

/-- A bulk request whose body writes one bank. -/
theorem bulkRequest_setsBank {s : State} {k : Byte} {r : Req} {o : OutcomeCode} {fields : List Byte} {b : BankNo}
    {x : Bank} (h0 : r.lane = 0) (ht : TakesBulk s (r.frame k)) (body : State → State × Answer)
    (he : body (bulkTaken (r.frame k) s) = ((bulkTaken (r.frame k) s).setBank b x, .reply o fields)) :
    ∃ t, bulkRequest k r body s = .next t ∧ BulkAnswered s t k r o fields ∧ t.bank b = x ∧
      (∀ d, d ≠ b → t.bank d = s.bank d) ∧ BulkFrame { s with banks := t.banks } t := by
  obtain ⟨t, hrun, ha, hf⟩ := bulkRequest_wrote (s' := s.setBank b x) h0 ht body he
    (by apply State.ext <;> simp [State.setBank]) ⟨rfl, rfl, rfl⟩
  refine ⟨t, hrun, ha, ?_, fun d hd => ?_, ?_⟩
  · rw [bank_congr hf.banks, bank_setBank_same]
  · rw [bank_congr hf.banks, bank_setBank_ne _ _ hd]
  · rw [hf.banks]
    exact hf

/-! ### The staging bank (R41) -/

theorem bankIn_congr {s t : State} (h : t.banks = s.banks) (p : BankState → Bool) : t.bankIn p = s.bankIn p := by
  unfold State.bankIn State.bank
  rw [h]

theorem stagingBank_congr {s t : State} (h : t.banks = s.banks) : t.stagingBank = s.stagingBank := bankIn_congr h _

theorem onStaging_some {s : State} {b : BankNo} (h : s.stagingBank = some b) (f : Frame)
    (body : BankNo → State → State × Answer) : onStaging body (bulkTaken f s) = body b (bulkTaken f s) := by
  rw [onStaging, stagingBank_congr (bulkTaken_banks f s), h]

/-- Without a staging bank the requests that act on it are answered BAD_STATE (R41). -/
theorem onStaging_refused {s : State} {k : Byte} {r : Req} {len : Nat} (h0 : r.lane = 0) (ht : TakesBulk s (r.frame k))
    (hlen : r.payload.length = len) (hn : s.stagingBank = none) (body : BankNo → State → State × Answer) :
    ∃ t, bulkRequest k r (withLength len r (onStaging body)) s = .next t ∧ BulkAnswered s t k r .badState [] ∧
      BulkFrame s t :=
  bulkRequest_refused h0 ht _ (by
    rw [withLength, if_pos hlen, onStaging, stagingBank_congr (bulkTaken_banks ..), hn])

/-! ### BANK_BEGIN and BANK_ABANDON (R42, R51) -/

/-- The bank BANK_BEGIN takes: the staging bank, else the lowest FREE bank. -/
theorem bankToBegin_some {s : State} {b : BankNo} (h : s.stagingBank = some b ∨
    (s.stagingBank = none ∧ (s.bank b).state = .free ∧ ∀ d, d < b → (s.bank d).state ≠ .free)) :
    s.bankToBegin = some b := by
  unfold State.bankToBegin
  rcases h with h | ⟨hn, hfree, hlow⟩
  · rw [h]
  · rw [hn]
    exact bankIn_some.2 ⟨by simp [hfree], fun d hd => by simpa using hlow d hd⟩

theorem bankToBegin_none {s : State} (hn : s.stagingBank = none) (hf : ∀ d, (s.bank d).state ≠ .free) :
    s.bankToBegin = none := by
  unfold State.bankToBegin
  rw [hn]
  exact bankIn_none.2 fun b => by simpa using hf b

theorem bankToBegin_congr {s t : State} (h : t.banks = s.banks) : t.bankToBegin = s.bankToBegin := by
  unfold State.bankToBegin
  rw [stagingBank_congr h, bankIn_congr h]

/-- BANK_BUSY names the DRAINING bank (R42). -/
theorem bankBusy_draining {s : State} {b : BankNo} (hb : (s.bank b).state = .draining)
    (hlow : ∀ d, d < b → (s.bank d).state ≠ .draining) :
    bankBusy s = .reply .bankBusy (enc 2 (s.bank b).generation ++ enc 1 (s.bank b).pins) := by
  have h : s.bankIn (· == .draining) = some b := bankIn_some.2 ⟨by simp [hb], fun d hd => by simpa using hlow d hd⟩
  rw [bankBusy, h]

theorem bankBusy_congr {s t : State} (h : t.banks = s.banks) : bankBusy t = bankBusy s := by
  unfold bankBusy State.bank
  rw [bankIn_congr h, h]

section
variable {s : State} {r : Req}

theorem bankBegin_takes (h0 : r.lane = 0) (ht : TakesBulk s (r.frame 0x20)) (hlen : r.payload.length = 2)
    (hg : 1 ≤ field r.payload 0 2) {b : BankNo} (hb : s.bankToBegin = some b) :
    ∃ t, exec (.bankBegin r) s = .next t ∧
      BulkAnswered s t 0x20 r .ok (enc 1 b.val ++ enc 2 (field r.payload 0 2)) ∧
      t.bank b = { Bank.initial with state := .staging, generation := field r.payload 0 2 } ∧
      (∀ d, d ≠ b → t.bank d = s.bank d) ∧ BulkFrame { s with banks := t.banks } t := by
  refine bulkRequest_setsBank h0 ht _ ?_
  rw [withLength, if_pos hlen, bankBeginBody, if_neg (Nat.ne_of_gt hg), bankToBegin_congr (bulkTaken_banks ..), hb]
  rfl

theorem bankBegin_busy (h0 : r.lane = 0) (ht : TakesBulk s (r.frame 0x20)) (hlen : r.payload.length = 2)
    (hg : 1 ≤ field r.payload 0 2) (hn : s.bankToBegin = none) {b : BankNo} (hb : (s.bank b).state = .draining)
    (hlow : ∀ d, d < b → (s.bank d).state ≠ .draining) :
    ∃ t, exec (.bankBegin r) s = .next t ∧
      BulkAnswered s t 0x20 r .bankBusy (enc 2 (s.bank b).generation ++ enc 1 (s.bank b).pins) ∧ BulkFrame s t := by
  refine bulkRequest_refused h0 ht _ ?_
  rw [withLength, if_pos hlen, bankBeginBody, if_neg (Nat.ne_of_gt hg), bankToBegin_congr (bulkTaken_banks ..), hn,
    ← bankBusy_draining hb hlow, ← bankBusy_congr (bulkTaken_banks (r.frame 0x20) s)]

theorem bankAbandon_takes (h0 : r.lane = 0) (ht : TakesBulk s (r.frame 0x25)) (hlen : r.payload = []) {b : BankNo}
    (hb : s.stagingBank = some b) :
    ∃ t, exec (.bankAbandon r) s = .next t ∧
      BulkAnswered s t 0x25 r .ok (enc 1 b.val ++ enc 2 (s.bank b).generation) ∧
      t.bank b = { Bank.initial with generation := (s.bank b).generation } ∧
      (∀ d, d ≠ b → t.bank d = s.bank d) ∧ BulkFrame { s with banks := t.banks } t := by
  refine bulkRequest_setsBank h0 ht _ ?_
  rw [withLength, if_pos (by rw [hlen]; rfl), onStaging_some hb, bankAbandonBody, bank_congr (bulkTaken_banks ..)]
  rfl

end

/-- Settles O33: the bank each request takes, its write, and the refusals. -/
theorem bankBeginAndAbandonSetTheStagingBank : Obligations.BankBeginAndAbandonSetTheStagingBank := by
  refine fun s r h0 => ⟨fun b ht hlen hg hb => bankBegin_takes h0 ht hlen hg (bankToBegin_some hb),
    fun b ht hlen hg hn hf hb hlow => bankBegin_busy h0 ht hlen hg (bankToBegin_none hn hf) hb hlow,
    fun ht hlen hg => bulkRequest_refused h0 ht _ ?_,
    fun b ht hlen hb => bankAbandon_takes h0 ht hlen hb,
    fun ht hlen hn => onStaging_refused h0 ht (by rw [hlen]; rfl) hn _⟩
  rw [withLength, if_pos hlen, bankBeginBody, if_pos hg]
  rfl

/-! ### OFFERS_CLOSE and SCHEDULE_PUT (R47, R48) -/

/-- With the section closed a bank is READY once it has a schedule (R41). -/
theorem reevaluated_closed (x : Bank) : Bank.reevaluated { x with closed := true } =
    { x with closed := true, state := if x.schedule = none then .staging else .ready } := by
  unfold Bank.reevaluated
  cases h : x.schedule <;> simp

/-- With a schedule a bank is READY once its section is closed (R41). -/
theorem reevaluated_scheduled (x : Bank) (d : Schedule) : Bank.reevaluated { x with schedule := some d } =
    { x with schedule := some d, state := if x.closed then .ready else .staging } := by
  unfold Bank.reevaluated
  cases h : x.closed <;> simp

section
variable {s : State} {r : Req} {b : BankNo}

theorem offersClose_takes (h0 : r.lane = 0) (ht : TakesBulk s (r.frame 0x22)) (hlen : r.payload.length = 6)
    (hb : s.stagingBank = some b) (hn : field r.payload 0 2 = (s.bank b).offers.length)
    (hc : field r.payload 2 4 = (crc32 ((s.bank b).offers.flatMap Offer.image)).toNat) {state : BankState}
    (hst : state = if (s.bank b).schedule = none then .staging else .ready) :
    ∃ t, exec (.offersClose r) s = .next t ∧
      BulkAnswered s t 0x22 r .ok (enc 2 (s.bank b).offers.length ++ [state.code]) ∧
      t.bank b = { s.bank b with closed := true, state := state } ∧
      (∀ d, d ≠ b → t.bank d = s.bank d) ∧ BulkFrame { s with banks := t.banks } t := by
  refine bulkRequest_setsBank h0 ht _ ?_
  rw [withLength, if_pos hlen, onStaging_some hb, offersCloseBody, bank_congr (bulkTaken_banks ..),
    if_pos ⟨hn, hc⟩, reevaluated_closed, hst]

theorem offersClose_mismatch (h0 : r.lane = 0) (ht : TakesBulk s (r.frame 0x22)) (hlen : r.payload.length = 6)
    (hb : s.stagingBank = some b) {check : Nat}
    (hc : check = (crc32 ((s.bank b).offers.flatMap Offer.image)).toNat)
    (hne : field r.payload 0 2 ≠ (s.bank b).offers.length ∨ field r.payload 2 4 ≠ check) :
    ∃ t, exec (.offersClose r) s = .next t ∧
      BulkAnswered s t 0x22 r .mismatch (enc 2 (s.bank b).offers.length ++ enc 4 check) ∧ BulkFrame s t := by
  refine bulkRequest_refused h0 ht _ ?_
  have hif : ¬ (field r.payload 0 2 = (s.bank b).offers.length ∧
      field r.payload 2 4 = (s.bank b).offersCheck.toNat) := fun ⟨h1, h2⟩ =>
    hne.elim (fun h => h h1) fun h => h (h2.trans hc.symm)
  rw [withLength, if_pos hlen, onStaging_some hb, offersCloseBody, bank_congr (bulkTaken_banks ..), if_neg hif, hc]
  rfl

theorem schedulePut_bad (h0 : r.lane = 0) (ht : TakesBulk s (r.frame 0x23)) (hlen : r.payload.length = 18)
    (hb : s.stagingBank = some b) {off : Nat} (hoff : firstBad (scheduleChecks r.payload) = some off) :
    ∃ t, exec (.schedulePut r) s = .next t ∧ BulkAnswered s t 0x23 r .badField ([0] ++ enc 1 off) ∧
      BulkFrame s t := by
  refine bulkRequest_refused h0 ht _ ?_
  rw [withLength, if_pos hlen, onStaging_some hb, schedulePutBody, hoff]
  rfl

theorem schedulePut_takes (h0 : r.lane = 0) (ht : TakesBulk s (r.frame 0x23)) (hlen : r.payload.length = 18)
    (hb : s.stagingBank = some b) (hok : firstBad (scheduleChecks r.payload) = none) {state : BankState}
    (hst : state = if (s.bank b).closed then .ready else .staging) :
    ∃ t, exec (.schedulePut r) s = .next t ∧ BulkAnswered s t 0x23 r .ok [state.code] ∧
      t.bank b = { s.bank b with state := state, schedule := some (scheduleOf r.payload) } ∧
      (∀ d, d ≠ b → t.bank d = s.bank d) ∧ BulkFrame { s with banks := t.banks } t := by
  refine bulkRequest_setsBank h0 ht _ ?_
  rw [withLength, if_pos hlen, onStaging_some hb, schedulePutBody, hok, bank_congr (bulkTaken_banks ..),
    reevaluated_scheduled, hst]

end

/-- Settles O35: the two requests on the staging bank, with the state each leaves it in. -/
theorem closeAndScheduleMakeABankReady : Obligations.CloseAndScheduleMakeABankReady := by
  intro s r h0
  refine ⟨fun hn => ⟨fun ht hlen => onStaging_refused h0 ht hlen hn _,
    fun ht hlen => onStaging_refused h0 ht hlen hn _⟩, fun b check checks hb hcheck hchecks => ?_⟩
  have hsched : checks = scheduleChecks r.payload := hchecks.trans (by simp [scheduleChecks])
  refine ⟨fun ht hlen => ⟨fun hn hc => ?_, offersClose_mismatch h0 ht hlen hb hcheck⟩, fun off ht hlen hoff => ?_,
    fun ht hlen hok => ?_⟩
  · obtain ⟨t, hrun, ha, hbank, hother, hf⟩ := offersClose_takes h0 ht hlen hb hn (hc.trans hcheck) rfl
    exact ⟨t, hrun, ⟨hbank, ha⟩, hother, hf⟩
  · exact schedulePut_bad h0 ht hlen hb (hsched ▸ firstFails_iff.1 hoff)
  · obtain ⟨t, hrun, ha, hbank, hother, hf⟩ :=
      schedulePut_takes h0 ht hlen hb (hsched ▸ firstBad_none.2 hok) rfl
    exact ⟨t, hrun, ⟨hbank, ha⟩, hother, hf⟩

/-! ### BANK_COMMIT (R49, R50, R58) -/

/-- SERVING once a bank is CURRENT and the store day is above 0 (R58). -/
theorem updateServing_eq {s : State} (h : s.currentBank.isSome = true) : updateServing s =
    { s with device := { s.device with serving := s.device.serving || decide (0 < s.device.day) } } := by
  unfold updateServing
  rw [h]
  by_cases hd : 0 < s.device.day <;> simp [hd]

theorem currentBank_isSome {s : State} {b : BankNo} (h : (s.bank b).state = .current) :
    s.currentBank.isSome = true := by
  cases hc : s.currentBank with
  | some d => rfl
  | none => exact absurd h (currentBank_none.1 hc b)

/-- The bank in a state no other bank is in. -/
theorem bankIn_only {s : State} {p : BankState → Bool} {b : BankNo} (hb : p (s.bank b).state = true)
    (ho : ∀ d, d ≠ b → p (s.bank d).state = false) : s.bankIn p = some b :=
  bankIn_some.2 ⟨hb, fun d hd => ho d (Fin.ne_of_lt hd)⟩

/-- The state after the commit of a bank onto the tables of `w`. -/
def committed (b : BankNo) (w : State) : State :=
  { w.setBank b { w.bank b with state := .current, pins := 0 } with
    device := { w.device with serving := w.device.serving || decide (0 < w.device.day) } }

theorem commitBank_eq (b : BankNo) (s : State) : commitBank b s = committed b (replaceCurrent s) := by
  unfold commitBank
  exact updateServing_eq (currentBank_isSome (b := b) (by rw [bank_setBank_same]))

section
variable {s : State} {b d : BankNo}

theorem commitBank_first (h : s.currentBank = none) : commitBank b s = committed b s := by
  rw [commitBank_eq, replaceCurrent, h]

theorem commitBank_replaces (h : s.currentBank = some d) :
    commitBank b s = committed b (s.setBank d (s.bank d).replaced) := by
  rw [commitBank_eq, replaceCurrent, h]

theorem committed_bank_same : (committed b s).bank b = { s.bank b with state := .current, pins := 0 } :=
  bank_setBank_same ..

theorem committed_bank_ne (h : d ≠ b) : (committed b s).bank d = s.bank d := bank_setBank_ne _ _ h

/-- The commit in the midst of a request is that of the state before it. -/
theorem committed_taken {u w : State} (hu : u = { w with bulk := u.bulk, link := u.link, mainQ := u.mainQ }) :
    committed b u = { committed b w with bulk := u.bulk, link := u.link, mainQ := u.mainQ } := by
  rw [hu]
  rfl

theorem bulkTaken_eq (f : Frame) (s : State) : bulkTaken f s =
    { s with bulk := (bulkTaken f s).bulk, link := (bulkTaken f s).link, mainQ := (bulkTaken f s).mainQ } := by
  apply State.ext <;> simp

/-- A READY bank as the one BANK_COMMIT commits. -/
theorem readyBank (hb : (s.bank b).state = .ready) (ho : ∀ e, e ≠ b → (s.bank e).state ≠ .ready) :
    s.bankIn (· == .ready) = some b :=
  bankIn_only (by simp [hb]) fun e he => by simpa using ho e he

theorem currentBank_only (hd : (s.bank d).state = .current) (ho : ∀ e, e ≠ d → (s.bank e).state ≠ .current) :
    s.currentBank = some d :=
  bankIn_only (by simp [hd]) fun e he => by simpa using ho e he

end

section
variable {s : State} {r : Req} {b d : BankNo} (h0 : r.lane = 0) (ht : TakesBulk s (r.frame 0x24))
  (hp : r.payload = [])
include h0 ht hp

/-- An accepted BANK_COMMIT: `w` is the state before with the former CURRENT bank replaced. -/
theorem bankCommit_takes {w : State} {former : List Byte}
    (hw : w = { s with banks := w.banks }) (hb : s.bankIn (· == .ready) = some b) (hstale : staleAgainst s b = none)
    (hc : commitBank b (bulkTaken (r.frame 0x24) s) = committed b
      { w with bulk := (bulkTaken (r.frame 0x24) s).bulk, link := (bulkTaken (r.frame 0x24) s).link
               mainQ := (bulkTaken (r.frame 0x24) s).mainQ })
    (hformer : formerFields (bulkTaken (r.frame 0x24) s) (commitBank b (bulkTaken (r.frame 0x24) s)) = former) :
    ∃ t, exec (.bankCommit r) s = .next t ∧
      BulkAnswered s t 0x24 r .ok (enc 1 b.val ++ enc 2 (s.bank b).generation ++ former) ∧
      (∀ e, t.bank e = (committed b w).bank e) ∧
      t.device = { s.device with serving := s.device.serving || decide (0 < s.device.day) } ∧
      BulkFrame { s with banks := t.banks, device := t.device } t := by
  have hstale' : staleAgainst (bulkTaken (r.frame 0x24) s) b = none := by
    rw [← hstale]
    unfold staleAgainst State.bank
    rw [currentBank_congr (bulkTaken_banks ..), bulkTaken_banks]
  obtain ⟨t, hrun, ha, hf⟩ := bulkRequest_wrote (s := s) (s' := committed b w)
    (v := commitBank b (bulkTaken (r.frame 0x24) s)) h0 ht (withLength 0 r bankCommitBody)
    (fields := enc 1 b.val ++ enc 2 (s.bank b).generation ++ former) (o := .ok) (by
      rw [withLength, if_pos (by rw [hp]; rfl), bankCommitBody, bankIn_congr (bulkTaken_banks ..), hb]
      dsimp only
      rw [hstale', hformer, bank_congr (bulkTaken_banks ..)])
    (by rw [hc]; rfl) (by rw [hw]; exact ⟨rfl, rfl, rfl⟩)
  have hdev : t.device = { s.device with serving := s.device.serving || decide (0 < s.device.day) } := by
    rw [hf.device, hw]
    rfl
  refine ⟨t, hrun, ha, fun e => bank_congr hf.banks e, hdev, ?_⟩
  have hs : ({ s with banks := t.banks, device := t.device } : State) = committed b w := by
    rw [hf.banks, hf.device, hw]
    rfl
  rw [hs]
  exact hf

theorem bankCommit_first (hb : (s.bank b).state = .ready)
    (ho : ∀ d, d ≠ b → (s.bank d).state ≠ .ready ∧ (s.bank d).state ≠ .current) :
    ∃ t, exec (.bankCommit r) s = .next t ∧
      BulkAnswered s t 0x24 r .ok (enc 1 b.val ++ enc 2 (s.bank b).generation ++ [0, 0, 0]) ∧
      t.bank b = { s.bank b with state := .current, pins := 0 } ∧ (∀ d, d ≠ b → t.bank d = s.bank d) ∧
      t.device = { s.device with serving := s.device.serving || decide (0 < s.device.day) } ∧
      BulkFrame { s with banks := t.banks, device := t.device } t := by
  have hcur : s.currentBank = none := currentBank_none.2 fun e he => by
    by_cases heb : e = b
    · rw [heb, hb] at he; cases he
    · exact (ho e heb).2 he
  have hcur' : (bulkTaken (r.frame 0x24) s).currentBank = none :=
    (currentBank_congr (bulkTaken_banks ..)).trans hcur
  obtain ⟨t, hrun, ha, hbank, hdev, hf⟩ := bankCommit_takes (b := b) (w := s) (former := [0, 0, 0]) h0 ht hp rfl
    (readyBank hb fun e he => (ho e he).1) (by rw [staleAgainst, hcur])
    (by rw [commitBank_first hcur', ← bulkTaken_eq]) (by rw [formerFields, hcur'])
  exact ⟨t, hrun, ha, (hbank b).trans committed_bank_same, fun d hd => (hbank d).trans (committed_bank_ne hd), hdev,
    hf⟩

theorem bankCommit_replaces (hb : (s.bank b).state = .ready) (hd : (s.bank d).state = .current)
    (hg : (s.bank d).generation < (s.bank b).generation) :
    ∃ t, exec (.bankCommit r) s = .next t ∧
      t.bank b = { s.bank b with state := .current, pins := 0 } ∧
      t.bank d = (if (s.bank d).pins = 0 then { Bank.initial with generation := (s.bank d).generation }
        else { s.bank d with state := .draining }) ∧
      BulkAnswered s t 0x24 r .ok (enc 1 b.val ++ enc 2 (s.bank b).generation ++ enc 1 d.val
        ++ [if (s.bank d).pins = 0 then 0 else 4] ++ enc 1 (s.bank d).pins) ∧
      t.device = { s.device with serving := s.device.serving || decide (0 < s.device.day) } ∧
      BulkFrame { s with banks := t.banks, device := t.device } t := by
  have hne : d ≠ b := fun he => by rw [he, hb] at hd; cases hd
  have hcur : s.currentBank = some d := currentBank_only hd fun e he hcur => by
    rw [eq_of_other he hne.symm, hb] at hcur; cases hcur
  have hcur' : (bulkTaken (r.frame 0x24) s).currentBank = some d :=
    (currentBank_congr (bulkTaken_banks ..)).trans hcur
  obtain ⟨w, hw⟩ : ∃ w, w = s.setBank d (s.bank d).replaced := ⟨_, rfl⟩
  have hcommit : commitBank b (bulkTaken (r.frame 0x24) s) = committed b
      { w with bulk := (bulkTaken (r.frame 0x24) s).bulk, link := (bulkTaken (r.frame 0x24) s).link
               mainQ := (bulkTaken (r.frame 0x24) s).mainQ } := by
    rw [commitBank_replaces hcur', hw, bulkTaken_eq]
    rfl
  have hformer : formerFields (bulkTaken (r.frame 0x24) s) (commitBank b (bulkTaken (r.frame 0x24) s)) =
      enc 1 d.val ++ [if (s.bank d).pins = 0 then 0 else 4] ++ enc 1 (s.bank d).pins := by
    rw [formerFields, hcur', hcommit]
    dsimp only
    rw [committed_bank_ne hne]
    have hbank : w.bank d = (s.bank d).replaced := by rw [hw, bank_setBank_same]
    have hcode : (s.bank d).replaced.state.code = (if (s.bank d).pins = 0 then 0 else 4) ∧
        (s.bank d).replaced.pins = (s.bank d).pins := by
      unfold Bank.replaced
      split
      · next hpins => exact ⟨rfl, hpins.symm⟩
      · exact ⟨rfl, rfl⟩
    show enc 1 d.val ++ [(w.bank d).state.code] ++ enc 1 (w.bank d).pins = _
    rw [hbank, hcode.1, hcode.2]
  obtain ⟨t, hrun, ha, hbank, hdev, hf⟩ := bankCommit_takes (b := b) (w := w) h0 ht hp (by rw [hw]; rfl)
    (readyBank hb fun e he hr => by rw [eq_of_other he hne, hd] at hr; cases hr)
    (by rw [staleAgainst, hcur]; exact if_neg (Nat.not_le.2 hg)) hcommit hformer
  refine ⟨t, hrun, ?_, ?_, ?_, hdev, hf⟩
  · rw [hbank, committed_bank_same, hw, bank_setBank_ne _ _ hne.symm]
  · rw [hbank, committed_bank_ne hne, hw, bank_setBank_same]
    rfl
  · simpa only [List.append_assoc] using ha

theorem bankCommit_stale (hb : (s.bank b).state = .ready) (hd : (s.bank d).state = .current)
    (hg : (s.bank b).generation ≤ (s.bank d).generation) :
    ∃ t, exec (.bankCommit r) s = .next t ∧
      BulkAnswered s t 0x24 r .staleGeneration (enc 2 (s.bank d).generation) ∧ BulkFrame s t := by
  have hne : d ≠ b := fun he => by rw [he, hb] at hd; cases hd
  have hcur : s.currentBank = some d := currentBank_only hd fun e he hcur => by
    rw [eq_of_other he hne.symm, hb] at hcur; cases hcur
  have hready := readyBank hb fun e he hr => by rw [eq_of_other he hne, hd] at hr; cases hr
  have hstale : staleAgainst (bulkTaken (r.frame 0x24) s) b = some (s.bank d).generation := by
    rw [staleAgainst, currentBank_congr (bulkTaken_banks ..), hcur]
    dsimp only
    rw [bank_congr (bulkTaken_banks ..), bank_congr (bulkTaken_banks ..), if_pos hg]
  refine bulkRequest_refused h0 ht _ ?_
  rw [withLength, if_pos (by rw [hp]; rfl), bankCommitBody, bankIn_congr (bulkTaken_banks ..), hready]
  dsimp only
  rw [hstale]

/-- Without a READY bank the answer is NOT_READY with what the staging bank lacks (R49). -/
theorem bankCommit_notReady (hr : ∀ e, (s.bank e).state ≠ .ready) {fields : List Byte}
    (hn : notReady s = .reply .notReady fields) :
    ∃ t, exec (.bankCommit r) s = .next t ∧ BulkAnswered s t 0x24 r .notReady fields ∧ BulkFrame s t := by
  have hnone : s.bankIn (· == .ready) = none := bankIn_none.2 fun e => by simpa using hr e
  refine bulkRequest_refused h0 ht _ ?_
  have hnot : notReady (bulkTaken (r.frame 0x24) s) = notReady s := by
    unfold notReady State.bank
    rw [stagingBank_congr (bulkTaken_banks ..), bulkTaken_banks]
  rw [withLength, if_pos (by rw [hp]; rfl), bankCommitBody, bankIn_congr (bulkTaken_banks ..), hnone]
  dsimp only
  rw [hnot, hn]

end

/-- Settles O36: the commit with and without a former CURRENT bank, and the refusals. -/
theorem bankCommitReplacesTheCurrentBank : Obligations.BankCommitReplacesTheCurrentBank := by
  intro s r ht h0 hp
  refine ⟨fun b hb ho => bankCommit_first h0 ht hp hb ho,
    fun b d hb hd => ⟨bankCommit_replaces h0 ht hp hb hd, bankCommit_stale h0 ht hp hb hd⟩,
    fun b hb hr => bankCommit_notReady h0 ht hp hr ?_, fun hn => bankCommit_notReady h0 ht hp (fun e => ?_) ?_⟩
  · have hst : (s.bank b).state = .staging := (stagingBank_state hb).resolve_right (hr b)
    rw [notReady, hb]
    dsimp only
    rw [hst]
    cases (s.bank b).schedule <;> rfl
  · exact (stagingBank_none.1 hn e).2
  · rw [notReady, hn]

end Sys2Proof.Machine


/-! DAY_OPEN, the queries and the authority table (R101 to R106, R180, R181): each by the take every bulk request shares
and the equation of its body. -/

namespace Sys2Proof.Machine

/-! ### DAY_OPEN (R101, R180) -/

/-- The removal of claim-table entries, and of CLAIMS_FULL with any of them (R91). -/
theorem removeClaims_eq (p : ClaimEntry → Bool) (s : State) : removeClaims p s =
    { s with
      claims := s.claims.filter fun e => !p e
      conds := if s.claims.any p then (endExhaustion s).conds else s.conds } := by
  unfold removeClaims
  split <;> rfl

/-- The device after DAY_OPEN (R58, R180). -/
def Device.onDay (x : Device) (day : Nat) (current : Bool) : Device :=
  { x with day := day, serving := x.serving || current }

theorem openDay_eq {day : Nat} (h : 0 < day) (s : State) : openDay day s =
    { s with
      claims := s.claims.filter fun e => !e.isSpent
      conds := if s.claims.any ClaimEntry.isSpent then (endExhaustion s).conds else s.conds
      device := s.device.onDay day s.currentBank.isSome } := by
  unfold openDay updateServing
  rw [removeClaims_eq]
  show (if (s.currentBank.isSome && decide (0 < day)) = true then _ else _) = _
  rw [decide_eq_true h, Bool.and_true]
  cases hc : s.currentBank.isSome with
  | true =>
    rw [if_pos rfl]
    unfold Device.onDay
    rw [Bool.or_true]
    rfl
  | false =>
    rw [if_neg (by decide)]
    unfold Device.onDay
    rw [Bool.or_false]
    rfl

/-- CLAIMS_FULL goes with any SPENT claim, and no other class changes (R91, R101). -/
theorem openDay_conds {day : Nat} (h : 0 < day) (s : State) :
    (openDay day s).cond .claimsFull =
        (if s.claims.any ClaimEntry.isSpent then Cond.clear else s.cond .claimsFull) ∧
      OtherConditionsKept s (openDay day s) .claimsFull := by
  rw [openDay_eq h]
  split
  · exact ⟨cond_setCond_same .., rfl, fun d hd => cond_setCond_ne _ _ hd⟩
  · exact ⟨rfl, rfl, fun d _ => rfl⟩

theorem dayOpen_takes {s : State} {r : Req} {day : Nat} (ht : TakesBulk s (r.frame 0x2D)) (h0 : r.lane = 0)
    (hlen : r.payload.length = 2) (hday : day = field r.payload 0 2)
    (hfree : ∀ l, (s.lane l).state.holdsBasket = false) (hlt : s.device.day < day) :
    ∃ t, exec (.dayOpen r) s = .next t ∧
      BulkAnswered s t 0x2D r .ok (enc 2 day ++ enc 2 (s.claims.filter ClaimEntry.isSpent).length) ∧
      BulkFrame (openDay day s) t := by
  have hpos : 0 < day := Nat.lt_of_le_of_lt (Nat.zero_le _) hlt
  refine bulkRequest_wrote (v := openDay day (bulkTaken (r.frame 0x2D) s)) h0 ht
    (withLength 2 r (dayOpenBody r.payload)) ?_ ?_ (by rw [openDay_eq hpos]; exact ⟨rfl, rfl, rfl⟩)
  · have hlanes : ∀ l, ((bulkTaken (r.frame 0x2D) s).lane l).state.holdsBasket = false := fun l => by
      rw [lane_congr (bulkTaken_lanes ..)]; exact hfree l
    rw [withLength, if_pos hlen, dayOpenBody, ← hday, if_pos (basketLanes_nil hlanes), bulkTaken_device, if_pos hlt,
      State.spentClaims, bulkTaken_claims]
  · rw [openDay_eq hpos, openDay_eq hpos, bulkTaken_eq]
    rfl

/-- Settles O40: the day, the claims and CLAIMS_FULL by the equation of the body's write, and the refusals. -/
theorem dayOpenSetsTheDayAndDropsSpentClaims : Obligations.DayOpenSetsTheDayAndDropsSpentClaims := by
  intro s r day ht h0 hlen hday
  refine ⟨fun hfree hlt => ?_, fun hheld => bulkRequest_refused h0 ht _ ?_,
    fun hfree hle => bulkRequest_refused h0 ht _ ?_⟩
  · have hpos : 0 < day := Nat.lt_of_le_of_lt (Nat.zero_le _) hlt
    obtain ⟨t, hrun, ha, hf⟩ := dayOpen_takes ht h0 hlen hday hfree hlt
    obtain ⟨hfull, hmask, hother⟩ := openDay_conds hpos s
    have heq := openDay_eq hpos s
    have hdevice : t.device = s.device.onDay day s.currentBank.isSome := by rw [hf.device, heq]
    have hclaims : t.claims = s.claims.filter fun e => !e.isSpent := by rw [hf.claims, heq]
    refine ⟨t, hrun, ha, hdevice, hclaims, by rw [cond_congr hf.conds, hfull], ⟨?_, fun d hd => ?_⟩, ?_⟩
    · rw [hf.conds, hmask]
    · rw [cond_congr hf.conds, hother d hd]
    · have hs : ({ s with device := t.device, claims := t.claims, conds := t.conds } : State) = openDay day s := by
        rw [hdevice, hclaims, hf.conds, heq]
      rw [hs]
      exact hf
  · have hne : ¬ (basketLanes (bulkTaken (r.frame 0x2D) s)).isEmpty = true := fun he => by
      obtain ⟨l, hl⟩ := hheld
      have := basketLanes_empty he l
      rw [lane_congr (bulkTaken_lanes ..), hl] at this
      cases this
    rw [withLength, if_pos hlen, dayOpenBody, if_neg hne]
  · have hlanes : ∀ l, ((bulkTaken (r.frame 0x2D) s).lane l).state.holdsBasket = false := fun l => by
      rw [lane_congr (bulkTaken_lanes ..)]; exact hfree l
    rw [withLength, if_pos hlen, dayOpenBody, if_pos (basketLanes_nil hlanes), bulkTaken_device,
      if_neg (by rw [← hday]; exact Nat.not_lt.2 hle)]
    rfl

end Sys2Proof.Machine


/-! The queries (R102, R132, R181): each leaves the state of its take, and its reply is read from the state before. -/

namespace Sys2Proof.Machine

/-! ### A query (R102, R132, R181) -/

/-- A bulk request that leaves the state of its take: the reply, and the bulk queue as the take leaves it. -/
theorem bulkQuery {s : State} {k : Byte} {r : Req} (h0 : r.lane = 0) (ht : TakesBulk s (r.frame k))
    (body : State → State × Answer) {o : OutcomeCode} {fields : List Byte}
    (he : body (bulkTaken (r.frame k) s) = (bulkTaken (r.frame k) s, .reply o fields)) :
    ∃ t, bulkRequest k r body s = .next t ∧ BulkFrame s t ∧ BulkAnswered s t k r o fields ∧
      t.bulk = (bulkTaken (r.frame k) s).bulk := by
  refine ⟨_, bulkRequest_takes h0 ht body, ?_⟩
  rw [he, answerBulk_reply]
  exact ⟨bulkFrame_taken .., bulkAnswered_of rfl rfl rfl, by simp⟩

theorem bulkQuery_answers {s : State} {k : Byte} {r : Req} (h0 : r.lane = 0) (ht : TakesBulk s (r.frame k))
    (body : State → State × Answer) {o : OutcomeCode} {fields : List Byte}
    (he : body (bulkTaken (r.frame k) s) = (bulkTaken (r.frame k) s, .reply o fields)) :
    ∃ t, bulkRequest k r body s = .next t ∧ BulkFrame s t ∧ BulkAnswered s t k r o fields := by
  obtain ⟨t, hrun, hf, ha, -⟩ := bulkQuery h0 ht body he
  exact ⟨t, hrun, hf, ha⟩

/-! ### QUERY_ACCOUNT (R132) -/

section
variable {s : State} {r : Req} (h0 : r.lane = 0)
include h0

theorem queryAccount_found (ht : TakesBulk s (r.frame 0x2A)) (hlen : r.payload.length = 5)
    (hlo : 1 ≤ field r.payload 0 5) (hhi : field r.payload 0 5 ≤ 1099511627775) {e : AccountEntry}
    (he : s.account (field r.payload 0 5) = some e) :
    ∃ t, exec (.queryAccount r) s = .next t ∧ BulkFrame s t ∧ BulkAnswered s t 0x2A r .ok (accountFields s e) := by
  refine bulkQuery_answers h0 ht _ ?_
  have hfields : accountFields (bulkTaken (r.frame 0x2A) s) e = accountFields s e := by rw [bulkTaken_eq]; rfl
  rw [withLength, if_pos hlen, queryAccountBody, accountIdOk_eq, if_pos (by simp [hlo, hhi]),
    account_congr (bulkTaken_accounts ..), he, ← hfields]

theorem queryAccount_unknown (ht : TakesBulk s (r.frame 0x2A)) (hlen : r.payload.length = 5)
    (hlo : 1 ≤ field r.payload 0 5) (hhi : field r.payload 0 5 ≤ 1099511627775)
    (he : s.account (field r.payload 0 5) = none) :
    ∃ t, exec (.queryAccount r) s = .next t ∧ BulkFrame s t ∧ BulkAnswered s t 0x2A r .unknownAccount [] := by
  refine bulkQuery_answers h0 ht _ ?_
  rw [withLength, if_pos hlen, queryAccountBody, accountIdOk_eq, if_pos (by simp [hlo, hhi]),
    account_congr (bulkTaken_accounts ..), he]

theorem queryAccount_bad (ht : TakesBulk s (r.frame 0x2A)) (hlen : r.payload.length = 5)
    (hbad : field r.payload 0 5 = 0 ∨ 1099511627775 < field r.payload 0 5) :
    ∃ t, exec (.queryAccount r) s = .next t ∧ BulkFrame s t ∧ BulkAnswered s t 0x2A r .badField [0, 0] := by
  refine bulkQuery_answers h0 ht _ ?_
  have hout : ¬ (1 ≤ field r.payload 0 5 ∧ field r.payload 0 5 ≤ 1099511627775) := by omega
  rw [withLength, if_pos hlen, queryAccountBody, accountIdOk_eq, if_neg (by simpa using hout)]
  rfl

/-! ### QUERY_CLAIM and IDENTIFY (R102, R181) -/

theorem queryClaim_bad (ht : TakesBulk s (r.frame 0x2B)) (hlen : r.payload.length = 6)
    (hz : field r.payload 0 6 = 0) :
    ∃ t, exec (.queryClaim r) s = .next t ∧ BulkFrame s t ∧ BulkAnswered s t 0x2B r .badField [0, 0] := by
  refine bulkQuery_answers h0 ht _ ?_
  rw [withLength, if_pos hlen, queryClaimBody, if_pos hz]
  rfl

theorem queryClaim_reports (ht : TakesBulk s (r.frame 0x2B)) (hlen : r.payload.length = 6)
    (hpos : 1 ≤ field r.payload 0 6) :
    ∃ t, exec (.queryClaim r) s = .next t ∧ BulkFrame s t ∧
      BulkAnswered s t 0x2B r .ok (enc 2 s.claims.length ++ enc 2 (s.claims.filter ClaimEntry.isSpent).length ++
        claimFields (field r.payload 0 6) s) := by
  refine bulkQuery_answers h0 ht _ ?_
  have hfields : claimFields (field r.payload 0 6) (bulkTaken (r.frame 0x2B) s) =
      claimFields (field r.payload 0 6) s := by rw [bulkTaken_eq]; rfl
  rw [withLength, if_pos hlen, queryClaimBody, if_neg (Nat.ne_of_gt hpos), hfields, State.spentClaims,
    bulkTaken_claims]

theorem identify_reports (ht : TakesBulk s (r.frame 0x30)) (hp : r.payload = []) :
    ∃ t, exec (.identify r) s = .next t ∧ BulkFrame s t ∧ BulkAnswered s t 0x30 r .ok (identifyFields s) := by
  refine bulkQuery_answers h0 ht _ ?_
  have hfields : identifyFields (bulkTaken (r.frame 0x30) s) = identifyFields s := by rw [bulkTaken_eq]; rfl
  rw [withLength, if_pos (by rw [hp]; rfl), hfields]

/-! ### STATUS (R181, R189) -/

/-- What a part of STATUS reports. -/
def statusFields (part : Nat) (s : State) : List Byte :=
  if part = 1 then deviceStatus s else if part = 2 then allLanes.flatMap (laneStatus s) else parkListStatus s

theorem status_reports (ht : TakesBulk s (r.frame 0x31)) {part : Byte} (hp : r.payload = [part])
    (hpart : part = 1 ∨ part = 2 ∨ part = 3) :
    ∃ t, exec (.status r) s = .next t ∧ BulkFrame s t ∧
      BulkAnswered s t 0x31 r .ok (statusFields part.toNat (bulkTaken (r.frame 0x31) s)) ∧
      t.bulk = (bulkTaken (r.frame 0x31) s).bulk := by
  refine bulkQuery h0 ht (withLength 1 r (statusBody r.payload)) ?_
  rw [withLength, if_pos (by rw [hp]; rfl), statusBody, hp, field_first]
  rcases hpart with rfl | rfl | rfl <;> rfl

theorem status_bad (ht : TakesBulk s (r.frame 0x31)) {part : Byte} (hp : r.payload = [part]) (h1 : part ≠ 1)
    (h2 : part ≠ 2) (h3 : part ≠ 3) :
    ∃ t, exec (.status r) s = .next t ∧ BulkFrame s t ∧ BulkAnswered s t 0x31 r .badField [0, 0] := by
  have hn1 : part.toNat ≠ 1 := fun he => h1 (BitVec.eq_of_toNat_eq he)
  have hn2 : part.toNat ≠ 2 := fun he => h2 (BitVec.eq_of_toNat_eq he)
  have hn3 : part.toNat ≠ 3 := fun he => h3 (BitVec.eq_of_toNat_eq he)
  refine bulkQuery_answers h0 ht (withLength 1 r (statusBody r.payload)) ?_
  rw [withLength, if_pos (by rw [hp]; rfl), statusBody, hp, field_first]
  rw [if_neg hn1, if_neg hn2, if_neg hn3]
  rfl

omit h0 in
/-- STATUS part DEVICE at the take of its request: but for the bulk queue and the slot the take reserves it is that of the
state before. -/
theorem deviceStatus_taken (f : Frame) (s : State) : deviceStatus (bulkTaken f s) =
    encFlag s.device.serving ++ enc 2 s.device.day ++ bankStatus s 0 ++ bankStatus s 1 ++ conditionSets s
      ++ inboundStatus s.pool ++ inboundStatus (bulkTaken f s).bulk ++ enc 1 s.occupied
      ++ enc 1 (s.mainQ.reserved + 1) ++ enc 1 (24 - (s.occupied + (s.mainQ.reserved + 1)))
      ++ [s.link.hold.code] ++ enc 2 (s.timeLeft s.link.holdTimer) ++ flightStatus s
      ++ enc 2 s.claims.length ++ enc 2 s.spentClaims ++ enc 2 s.accounts.length ++ enc 2 s.authority.length := by
  have hlink := bulkTaken_link f s
  have hocc : (bulkTaken f s).occupied = s.occupied := occupied_congr (by simp) (by rw [hlink])
  have hbank : ∀ b, bankStatus (bulkTaken f s) b = bankStatus s b := fun b => by
    unfold bankStatus State.bank; rw [bulkTaken_banks]
  have hcond : conditionSets (bulkTaken f s) = conditionSets s := by
    unfold conditionSets
    rw [pendingSet_congr (cond_congr (bulkTaken_conds f s)), bulkTaken_conds]
  have hflight : flightStatus (bulkTaken f s) = flightStatus s := by unfold flightStatus; rw [bulkTaken_sched]
  have htime : (bulkTaken f s).timeLeft (bulkTaken f s).link.holdTimer = s.timeLeft s.link.holdTimer := by
    unfold State.timeLeft; rw [hlink, bulkTaken_now]
  have hhold : (bulkTaken f s).link.hold = s.link.hold := by rw [hlink]
  have hspent : (bulkTaken f s).spentClaims = s.spentClaims := by
    unfold State.spentClaims; rw [bulkTaken_claims]
  rw [deviceStatus, hocc, hbank, hbank, hcond, hflight, htime, hhold, hspent, bulkTaken_reserved, bulkTaken_device,
    bulkTaken_pool, bulkTaken_claims, bulkTaken_accounts, bulkTaken_authority]

theorem status_device (ht : TakesBulk s (r.frame 0x31)) (hp : r.payload = [1]) :
    ∃ t, exec (.status r) s = .next t ∧ BulkFrame s t ∧ BulkAnswered s t 0x31 r .ok
      (encFlag s.device.serving ++ enc 2 s.device.day ++ bankStatus s 0 ++ bankStatus s 1 ++ conditionSets s
        ++ inboundStatus s.pool ++ inboundStatus t.bulk ++ enc 1 s.occupied
        ++ enc 1 (s.mainQ.reserved + 1) ++ enc 1 (24 - (s.occupied + (s.mainQ.reserved + 1)))
        ++ [s.link.hold.code] ++ enc 2 (s.timeLeft s.link.holdTimer) ++ flightStatus s
        ++ enc 2 s.claims.length ++ enc 2 s.spentClaims ++ enc 2 s.accounts.length
        ++ enc 2 s.authority.length) := by
  obtain ⟨t, hrun, hf, ha, hbulk⟩ := status_reports h0 ht hp (.inl rfl)
  rw [show statusFields (1 : Byte).toNat _ = deviceStatus _ from rfl, deviceStatus_taken, ← hbulk] at ha
  exact ⟨t, hrun, hf, ha⟩

theorem status_lanes (ht : TakesBulk s (r.frame 0x31)) (hp : r.payload = [2]) :
    ∃ t, exec (.status r) s = .next t ∧ BulkFrame s t ∧
      BulkAnswered s t 0x31 r .ok (allLanes.flatMap (laneStatus s)) := by
  obtain ⟨t, hrun, hf, ha, -⟩ := status_reports h0 ht hp (.inr (.inl rfl))
  have hlane : laneStatus (bulkTaken (r.frame 0x31) s) = laneStatus s := by rw [bulkTaken_eq]; rfl
  rw [show statusFields (2 : Byte).toNat _ = allLanes.flatMap (laneStatus _) from rfl, hlane] at ha
  exact ⟨t, hrun, hf, ha⟩

theorem status_parks (ht : TakesBulk s (r.frame 0x31)) (hp : r.payload = [3]) :
    ∃ t, exec (.status r) s = .next t ∧ BulkFrame s t ∧
      BulkAnswered s t 0x31 r .ok (enc 2 s.parks.list.length ++ (s.parks.list.map (parkStatus s)).flatten) := by
  obtain ⟨t, hrun, hf, ha, -⟩ := status_reports h0 ht hp (.inr (.inr rfl))
  have hpark : parkStatus (bulkTaken (r.frame 0x31) s) = parkStatus s := by rw [bulkTaken_eq]; rfl
  rw [show statusFields (3 : Byte).toNat _ = parkListStatus _ from rfl, parkListStatus, hpark, bulkTaken_parks,
    List.flatMap_def] at ha
  exact ⟨t, hrun, hf, ha⟩

end

/-- The entry of a parked basket in STATUS part PARK (R153). -/
theorem parkStatus_parked {s : State} {e : ParkEntry} {p : Parking} (h : (s.ctx e.ctx).place = .parked p) :
    parkStatus s e = enc 1 e.ticket ++ [ctxByte e.ctx] ++ enc 2 ((s.now - p.since) / 1000)
      ++ enc 2 ((p.expires - s.now) / 1000) := by
  have hp : (s.ctx e.ctx).parking = some p := by rw [Context.parking, h]
  rw [parkStatus, hp]
  rfl

/-- The referring contexts of an account, by the id they refer to (R132). -/
theorem referring_eq (s : State) (id : Nat) : referring s id = allCtxs.filter fun c => referredId s c = some id :=
  List.filter_congr fun c _ => by rw [Bool.eq_iff_iff, refersTo_iff, decide_eq_true_iff]

/-- The fields QUERY_CLAIM gives, by the entry of the serial. -/
theorem claimFields_eq (serial : Nat) (s : State) : claimFields serial s =
    (let place := enc 1 (s.claims.findIdx (fun e => e.serial = serial) + 1)
     match s.claim serial with
     | none => [0]
     | some { serial := _, state := .claimed c inc } =>
       [1] ++ place ++ [ctxByte c] ++ enc 2 inc.toNat ++ [(s.ctx c).stateCode, (s.ctx c).laneOrTicket]
     | some { serial := _, state := .spent day } => [2] ++ place ++ enc 2 day) := by
  unfold claimFields
  cases s.claim serial with
  | none => rfl
  | some e =>
    obtain ⟨n, state⟩ := e
    cases state <;> rfl

/-- Settles O38: each query by its part, the reply read from the state before. -/
theorem queriesReportAndChangeNothing : Obligations.QueriesReportAndChangeNothing := by
  refine fun s r h0 => ⟨fun e ht hlen hlo hhi he => ?_, queryAccount_unknown h0, queryAccount_bad h0, queryClaim_bad h0,
    fun part ht hp h1 h2 h3 => status_bad h0 ht hp h1 h2 h3, fun ht hlen hpos => ?_, identify_reports h0,
    status_device h0, status_lanes h0, fun ht hp _ => ?_⟩
  · have h := queryAccount_found h0 ht hlen hlo hhi he
    rw [accountFields, referring_eq] at h
    exact h
  · have h := queryClaim_reports h0 ht hlen hpos
    rw [claimFields_eq] at h
    exact h
  · obtain ⟨t, hrun, hf, ha⟩ := status_parks h0 ht hp
    refine ⟨t, hrun, hf, _, ha, by simp, fun i e p hi hplace => ?_⟩
    rw [List.getElem?_map, hi, ← parkStatus_parked hplace]
    rfl

end Sys2Proof.Machine


/-! AUTHORITY_LOAD, AUTHORITY_REMOVE and AUTHORITY_CLEAR (R103 to R106): the entry a refusal names, the table after a load,
and the entry removed. -/

namespace Sys2Proof.Machine

/-! ### The count of entries (R44, R104, R188) -/

theorem countOk_iff {w most : Nat} {p : List Byte} : countOk w most p = true ↔
    1 ≤ field p 0 1 ∧ field p 0 1 ≤ most ∧ p.length = 1 + field p 0 1 * w := by
  unfold countOk
  simp only [Bool.and_eq_true, decide_eq_true_eq, beq_iff_eq]
  omega

theorem not_countOk {w most : Nat} {p : List Byte}
    (h : field p 0 1 = 0 ∨ most < field p 0 1 ∨ p.length ≠ 1 + field p 0 1 * w) : ¬ countOk w most p = true := by
  rw [countOk_iff]
  omega

theorem supervisorChecks_eq (e : List Byte) : supervisorChecks e =
    [ (decide (1 ≤ field e 0 3), 0), (decide (1 ≤ field e 3 1 ∧ field e 3 1 ≤ 3), 3),
      (decide (1 ≤ field e 4 2 ∧ field e 4 2 ≤ 10000), 4), (decide (field e 6 4 ≤ 99999999), 6) ] := by
  simp only [supervisorChecks, Bool.decide_and] <;> rfl

/-! ### AUTHORITY_LOAD (R104, R105) -/

section
variable {p : List Byte} {s : State}

theorem authorityLoadBody_refused (hc : countOk 10 6 p = true) {a : Answer}
    (ha : entriesRefusal 3 supervisorChecks [] 1 (entriesOf 10 p) = some a) : authorityLoadBody p s = (s, a) := by
  rw [authorityLoadBody, if_pos hc]
  dsimp only
  rw [supervisorsRefusal_eq, ha]

/-- The entries of a load whose ids the table does not hold (R105). -/
def freshEntries (s : State) (es : List (List Byte)) : List (List Byte) :=
  es.filter fun e => (s.supervisor (field e 0 3)).isNone

theorem supervisor_isNone (s : State) (id : Nat) : (s.supervisor id).isNone = !holdsSupervisor s.authority id := by
  rw [State.supervisor, holdsSupervisor, Bool.eq_iff_iff]
  simp

theorem freshEntries_length (s : State) (es : List (List Byte)) :
    ((es.map supervisorOf).filter fun e => !holdsSupervisor s.authority e.id).length = (freshEntries s es).length := by
  rw [List.filter_map, List.length_map, freshEntries]
  simp only [supervisor_isNone]
  rfl

theorem authorityLoadBody_full (hc : countOk 10 6 p = true)
    (hn : entriesRefusal 3 supervisorChecks [] 1 (entriesOf 10 p) = none)
    (hfull : 24 < s.authority.length + (freshEntries s (entriesOf 10 p)).length) :
    authorityLoadBody p s = (s, .reply .full (enc 2 s.authority.length)) := by
  rw [authorityLoadBody, if_pos hc]
  dsimp only
  rw [supervisorsRefusal_eq, hn]
  dsimp only
  rw [freshEntries_length, if_pos hfull]

/-- The table after a load. -/
def loadedTable (s : State) (es : List (List Byte)) : List Supervisor :=
  (es.map supervisorOf).foldl putSupervisor s.authority

theorem loadedTable_length {es : List (List Byte)} (hd : (es.map fun e => field e 0 3).Nodup) :
    (loadedTable s es).length = s.authority.length + (freshEntries s es).length := by
  rw [loadedTable, putSupervisors_length (by rw [supervisors_ids]; exact hd), freshEntries_length]

theorem authorityLoadBody_ok (hc : countOk 10 6 p = true)
    (hn : entriesRefusal 3 supervisorChecks [] 1 (entriesOf 10 p) = none)
    (hroom : s.authority.length + (freshEntries s (entriesOf 10 p)).length ≤ 24) :
    authorityLoadBody p s = ({ s with authority := loadedTable s (entriesOf 10 p) },
      .reply .ok (enc 2 (loadedTable s (entriesOf 10 p)).length ++ enc 2 (freshEntries s (entriesOf 10 p)).length
        ++ enc 2 ((entriesOf 10 p).length - (freshEntries s (entriesOf 10 p)).length))) := by
  rw [authorityLoadBody, if_pos hc]
  dsimp only
  rw [supervisorsRefusal_eq, hn]
  dsimp only
  rw [freshEntries_length, if_neg (Nat.not_lt.2 hroom)]
  rfl

/-- A supervisor after a load (R105). -/
theorem loadedTable_find {es : List (List Byte)} (hd : (es.map fun e => field e 0 3).Nodup) (id : Nat) :
    (loadedTable s es).find? (·.id == id) = match es.find? (fun e => field e 0 3 = id) with
      | some e => some { id := id, level := field e 3 1, lineLimit := field e 4 2, basketCap := field e 6 4 }
      | none => s.supervisor id := by
  have hfind : (es.map supervisorOf).find? (·.id == id) =
      (es.find? fun e => field e 0 3 = id).map supervisorOf := List.find?_map ..
  rw [loadedTable, putSupervisors_find (by rw [supervisors_ids]; exact hd), hfind]
  cases he : es.find? (fun e => field e 0 3 = id) with
  | none => rfl
  | some e =>
    have hid : field e 0 3 = id := by simpa using List.find?_some he
    simp [supervisorOf, hid]

end

section
variable {s : State} {r : Req} (h0 : r.lane = 0) (ht : TakesBulk s (r.frame 0x26))
include h0 ht

theorem authorityLoad_length (h : field r.payload 0 1 = 0 ∨ 6 < field r.payload 0 1 ∨
    r.payload.length ≠ 1 + field r.payload 0 1 * 10) :
    ∃ t, exec (.authorityLoad r) s = .next t ∧ BulkAnswered s t 0x26 r .badField [0, 255] ∧ BulkFrame s t := by
  refine bulkRequest_refused h0 ht _ ?_
  rw [authorityLoadBody, if_neg (not_countOk h), badLength_eq]

variable (hc : countOk 10 6 r.payload = true)
include hc

theorem authorityLoad_refused {o : OutcomeCode} {fields : List Byte}
    (ha : entriesRefusal 3 supervisorChecks [] 1 (entriesOf 10 r.payload) = some (.reply o fields)) :
    ∃ t, exec (.authorityLoad r) s = .next t ∧ BulkAnswered s t 0x26 r o fields ∧ BulkFrame s t :=
  bulkRequest_refused h0 ht _ (authorityLoadBody_refused hc ha)

variable (hok : ∀ e ∈ entriesOf 10 r.payload, firstBad (supervisorChecks e) = none)
  (hd : ((entriesOf 10 r.payload).map fun e => field e 0 3).Nodup)
include hok hd

theorem authorityLoad_takes
    (hroom : s.authority.length + (freshEntries s (entriesOf 10 r.payload)).length ≤ 24) :
    ∃ t, exec (.authorityLoad r) s = .next t ∧
      BulkAnswered s t 0x26 r .ok (enc 2 (loadedTable s (entriesOf 10 r.payload)).length
        ++ enc 2 (freshEntries s (entriesOf 10 r.payload)).length
        ++ enc 2 ((entriesOf 10 r.payload).length - (freshEntries s (entriesOf 10 r.payload)).length)) ∧
      t.authority = loadedTable s (entriesOf 10 r.payload) ∧ BulkFrame { s with authority := t.authority } t := by
  have hn := entriesRefusal_none (seen := []) 1 hok hd fun _ _ => List.not_mem_nil
  have hfresh : freshEntries (bulkTaken (r.frame 0x26) s) (entriesOf 10 r.payload) =
      freshEntries s (entriesOf 10 r.payload) := by rw [bulkTaken_eq]; rfl
  have htable : loadedTable (bulkTaken (r.frame 0x26) s) (entriesOf 10 r.payload) =
      loadedTable s (entriesOf 10 r.payload) := by rw [bulkTaken_eq]; rfl
  have hbody := authorityLoadBody_ok (s := bulkTaken (r.frame 0x26) s) hc hn (by
    rw [hfresh, bulkTaken_authority]; exact hroom)
  rw [hfresh, htable] at hbody
  obtain ⟨t, hrun, ha, hf⟩ := bulkRequest_wrote
    (s' := { s with authority := loadedTable s (entriesOf 10 r.payload) }) h0 ht _ hbody
    (by rw [bulkTaken_eq]) ⟨rfl, rfl, rfl⟩
  exact ⟨t, hrun, ha, hf.authority, by rw [hf.authority]; exact hf⟩

theorem authorityLoad_full
    (hfull : 24 < s.authority.length + (freshEntries s (entriesOf 10 r.payload)).length) :
    ∃ t, exec (.authorityLoad r) s = .next t ∧ BulkAnswered s t 0x26 r .full (enc 2 s.authority.length) ∧
      BulkFrame s t := by
  have hn := entriesRefusal_none (seen := []) 1 hok hd fun _ _ => List.not_mem_nil
  have hfresh : freshEntries (bulkTaken (r.frame 0x26) s) (entriesOf 10 r.payload) =
      freshEntries s (entriesOf 10 r.payload) := by rw [bulkTaken_eq]; rfl
  refine bulkRequest_refused h0 ht _ ?_
  rw [authorityLoadBody_full hc hn (by rw [hfresh, bulkTaken_authority]; exact hfull), bulkTaken_authority]

end

/-! ### AUTHORITY_REMOVE and AUTHORITY_CLEAR (R106) -/

/-- Among distinct ids the entries with another id are those but the one found. -/
theorem filter_id_ne {t : List Supervisor} (hd : (t.map (·.id)).Nodup) {id : Nat} {e : Supervisor}
    (he : t.find? (·.id == id) = some e) : t.filter (·.id != id) = t.erase e := by
  have hid : e.id = id := by simpa using List.find?_some he
  rw [hd.of_map.erase_eq_filter]
  refine List.filter_congr fun x hx => ?_
  rw [bne, bne, Bool.not_inj_iff, Bool.eq_iff_iff, beq_iff_eq, beq_iff_eq, ← hid]
  exact ⟨fun h => List.inj_on_of_nodup_map hd hx (List.mem_of_find?_eq_some he) h, fun h => congrArg _ h⟩

section
variable {s : State} {r : Req} (h0 : r.lane = 0)
include h0

theorem authorityRemove_takes (ht : TakesBulk s (r.frame 0x27)) (hlen : r.payload.length = 3)
    (hpos : 1 ≤ field r.payload 0 3) (hd : (s.authority.map (·.id)).Nodup) {e : Supervisor}
    (he : s.supervisor (field r.payload 0 3) = some e) :
    ∃ t, exec (.authorityRemove r) s = .next t ∧
      BulkAnswered s t 0x27 r .ok (enc 3 (field r.payload 0 3) ++ enc 2 (s.authority.length - 1)) ∧
      t.authority = s.authority.erase e ∧ BulkFrame { s with authority := t.authority } t := by
  have hfilter := filter_id_ne hd he
  have hheld : holdsSupervisor s.authority (field r.payload 0 3) = true := by
    have hn := supervisor_isNone s (field r.payload 0 3)
    rw [he] at hn
    simpa using hn.symm
  have hlength : (s.authority.erase e).length = s.authority.length - 1 :=
    List.length_erase_of_mem (List.mem_of_find?_eq_some he)
  obtain ⟨t, hrun, ha, hf⟩ := bulkRequest_wrote (s' := { s with authority := s.authority.erase e }) (o := .ok)
    (v := { bulkTaken (r.frame 0x27) s with authority := s.authority.erase e })
    (fields := enc 3 (field r.payload 0 3) ++ enc 2 (s.authority.length - 1)) h0 ht
    (withLength 3 r (authorityRemoveBody r.payload)) (by
      rw [withLength, if_pos hlen, authorityRemoveBody, if_neg (Nat.ne_of_gt hpos), bulkTaken_authority, if_pos hheld]
      dsimp only
      rw [hfilter, hlength])
    (by rw [bulkTaken_eq]) ⟨rfl, rfl, rfl⟩
  exact ⟨t, hrun, ha, hf.authority, by rw [hf.authority]; exact hf⟩

theorem authorityRemove_unknown (ht : TakesBulk s (r.frame 0x27)) (hlen : r.payload.length = 3)
    (hpos : 1 ≤ field r.payload 0 3) (he : s.supervisor (field r.payload 0 3) = none) :
    ∃ t, exec (.authorityRemove r) s = .next t ∧
      BulkAnswered s t 0x27 r .noAuthority (enc 3 (field r.payload 0 3)) ∧ BulkFrame s t := by
  have hheld : ¬ holdsSupervisor s.authority (field r.payload 0 3) = true := by
    have hn := supervisor_isNone s (field r.payload 0 3)
    rw [he] at hn
    simpa using hn.symm
  refine bulkRequest_refused h0 ht _ ?_
  rw [withLength, if_pos hlen, authorityRemoveBody, if_neg (Nat.ne_of_gt hpos), bulkTaken_authority, if_neg hheld]

theorem authorityRemove_zero (ht : TakesBulk s (r.frame 0x27)) (hlen : r.payload.length = 3)
    (hz : field r.payload 0 3 = 0) :
    ∃ t, exec (.authorityRemove r) s = .next t ∧ BulkAnswered s t 0x27 r .badField [0, 0] ∧ BulkFrame s t := by
  refine bulkRequest_refused h0 ht _ ?_
  rw [withLength, if_pos hlen, authorityRemoveBody, if_pos hz]
  rfl

theorem authorityClear_takes (ht : TakesBulk s (r.frame 0x28)) (hp : r.payload = []) :
    ∃ t, exec (.authorityClear r) s = .next t ∧ BulkAnswered s t 0x28 r .ok (enc 2 s.authority.length) ∧
      t.authority = [] ∧ BulkFrame { s with authority := [] } t := by
  obtain ⟨t, hrun, ha, hf⟩ := bulkRequest_wrote (s' := { s with authority := [] }) (o := .ok)
    (v := { bulkTaken (r.frame 0x28) s with authority := [] }) (fields := enc 2 s.authority.length) h0 ht
    (withLength 0 r authorityClearBody) (by
      rw [withLength, if_pos (by rw [hp]; rfl), authorityClearBody, bulkTaken_authority])
    (by rw [bulkTaken_eq]) ⟨rfl, rfl, rfl⟩
  exact ⟨t, hrun, ha, hf.authority, hf⟩

end

/-- Settles O37: the load by its refusals and the table it leaves, then the entry removed and the table cleared. -/
theorem authorityTableIsLoadedAndCleared : Obligations.AuthorityTableIsLoadedAndCleared := by
  intro s r h0 hsound
  obtain ⟨-, hnodup⟩ := hsound
  refine ⟨fun ht h => authorityLoad_length h0 ht h, ?_, ?_, ?_, fun ht hlen hz => authorityRemove_zero h0 ht hlen hz,
    fun ht hp => authorityClear_takes h0 ht hp⟩
  · intro es n e checks hchecks ht h1 h6 hlen hes he hok hd
    obtain rfl : checks = supervisorChecks := hchecks.trans (funext fun x => (supervisorChecks_eq x).symm)
    obtain rfl : es = entriesOf 10 r.payload := hes
    have hc := countOk_iff.2 ⟨h1, h6, hlen⟩
    have hok' : ∀ x ∈ (entriesOf 10 r.payload).take n, firstBad (supervisorChecks x) = none := fun x hx =>
      firstBad_none.2 (hok x hx)
    refine ⟨fun off hoff => authorityLoad_refused h0 ht hc ?_, fun hgood hrep => authorityLoad_refused h0 ht hc ?_⟩
    · rw [Nat.add_comm n 1]
      exact entriesRefusal_invalid he hok' hd (fun _ _ => List.not_mem_nil) 1 (firstFails_iff.1 hoff)
    · rw [Nat.add_comm n 1]
      exact entriesRefusal_repeats he hok' hd (fun _ _ => List.not_mem_nil) 1 (firstBad_none.2 hgood) (.inr hrep)
  · intro es fresh ht h1 h6 hlen hes hok hd hfresh
    obtain rfl : es = entriesOf 10 r.payload := hes
    obtain rfl : fresh = (freshEntries s (entriesOf 10 r.payload)).length := hfresh
    have hc := countOk_iff.2 ⟨h1, h6, hlen⟩
    refine ⟨fun hroom => ?_, fun hfull => authorityLoad_full h0 ht hc hok hd hfull⟩
    obtain ⟨t, hrun, ha, hta, hf⟩ := authorityLoad_takes h0 ht hc hok hd hroom
    rw [loadedTable_length hd] at ha
    refine ⟨t, hrun, ha, by rw [hta, loadedTable_length hd], fun id => ?_, hf⟩
    rw [State.supervisor, hta]
    exact loadedTable_find hd id
  · rintro _ ht hlen rfl hpos
    exact ⟨fun e he => authorityRemove_takes h0 ht hlen hpos hnodup he,
      fun he => authorityRemove_unknown h0 ht hlen hpos he⟩

end Sys2Proof.Machine


/-! OFFER_PUT (R44, R45): the entry a refusal names, and the offers of the staging bank in the order of their ids. -/

namespace Sys2Proof.Machine

/-! ### The offers of a bank in the order of their ids (R43, R45) -/

/-- The offers of a bank stand in increasing id order (R43). -/
def InIdOrder (os : List Offer) : Prop := os.Pairwise fun o p => o.id < p.id

theorem insertOffer_perm (o : Offer) (os : List Offer) : (insertOffer o os).Perm (o :: os) := by
  induction os with
  | nil => exact .refl _
  | cons x xs ih =>
    unfold insertOffer
    split
    · exact .refl _
    · exact (ih.cons x).trans (.swap o x xs)

/-- An offer with an id of its own is inserted at its place (R45). -/
theorem insertOffer_inOrder {o : Offer} {os : List Offer} (h : InIdOrder os) (hn : ∀ x ∈ os, x.id ≠ o.id) :
    InIdOrder (insertOffer o os) := by
  induction os with
  | nil => exact List.pairwise_singleton ..
  | cons x xs ih =>
    obtain ⟨hx, hxs⟩ := List.pairwise_cons.1 h
    have hne := hn x List.mem_cons_self
    unfold insertOffer
    split
    · next hlt =>
      refine List.pairwise_cons.2 ⟨fun y hy => ?_, h⟩
      rcases List.mem_cons.1 hy with rfl | hy
      · exact hlt
      · exact Nat.lt_trans hlt (hx y hy)
    · next hge =>
      refine List.pairwise_cons.2 ⟨fun y hy => ?_, ih hxs fun y hy => hn y (List.mem_cons_of_mem x hy)⟩
      rcases List.mem_cons.1 ((insertOffer_perm o xs).mem_iff.1 hy) with rfl | hy
      · omega
      · exact hx y hy

/-- The offers of a bank with others inserted one by one (R45). -/
def insertOffers (os new : List Offer) : List Offer := new.foldl (fun l o => insertOffer o l) os

theorem insertOffers_perm (os new : List Offer) : (insertOffers os new).Perm (os ++ new) := by
  induction new generalizing os with
  | nil => rw [List.append_nil]; exact .refl _
  | cons o new ih =>
    calc insertOffers (insertOffer o os) new
      _ |>.Perm (insertOffer o os ++ new) := ih _
      _ |>.Perm (o :: os ++ new) := (insertOffer_perm o os).append_right new
      _ |>.Perm (os ++ o :: new) := List.perm_middle.symm

theorem insertOffers_inOrder {os new : List Offer} (h : InIdOrder os) (hd : (new.map (·.id)).Nodup)
    (hn : ∀ o ∈ new, ∀ x ∈ os, x.id ≠ o.id) : InIdOrder (insertOffers os new) := by
  induction new generalizing os with
  | nil => exact h
  | cons o new ih =>
    obtain ⟨ho, hd⟩ := List.nodup_cons.1 hd
    refine ih (insertOffer_inOrder h (hn o List.mem_cons_self)) hd fun p hp x hx => ?_
    rcases List.mem_cons.1 ((insertOffer_perm o os).mem_iff.1 hx) with rfl | hx
    · exact fun he => ho (List.mem_map.2 ⟨p, hp, he.symm⟩)
    · exact hn p (List.mem_cons_of_mem o hp) x hx

/-! ### The answers of OFFER_PUT (R44, R45) -/

section
variable {p : List Byte} {b : BankNo} {s : State}

theorem offerPutBody_refused (hc : countOk 32 5 p = true) {a : Answer}
    (ha : entriesRefusal 2 offerChecks ((s.bank b).offers.map (·.id)) 1 (entriesOf 32 p) = some a) :
    offerPutBody p b s = (s, a) := by
  rw [offerPutBody]
  dsimp only
  rw [if_pos hc, offersRefusal_eq, ha]

variable (hc : countOk 32 5 p = true)
  (hn : entriesRefusal 2 offerChecks ((s.bank b).offers.map (·.id)) 1 (entriesOf 32 p) = none)
include hc hn

theorem offerPutBody_full (hfull : 384 < (s.bank b).offers.length + (entriesOf 32 p).length) :
    offerPutBody p b s = (s, .reply .full (enc 2 (s.bank b).offers.length)) := by
  rw [offerPutBody]
  dsimp only
  rw [if_pos hc, offersRefusal_eq, hn]
  exact if_pos hfull

theorem offerPutBody_ok (hroom : (s.bank b).offers.length + (entriesOf 32 p).length ≤ 384) :
    offerPutBody p b s = (s.setBank b ((s.bank b).withOffers ((entriesOf 32 p).map offerOf)),
      .reply .ok (enc 2 ((s.bank b).offers.length + (entriesOf 32 p).length) ++ [0, 1])) := by
  have hlen : ((s.bank b).withOffers ((entriesOf 32 p).map offerOf)).offers.length =
      (s.bank b).offers.length + (entriesOf 32 p).length := by
    rw [← List.length_map (f := offerOf), ← List.length_append]
    exact (insertOffers_perm ..).length_eq
  rw [offerPutBody]
  dsimp only
  rw [if_pos hc, offersRefusal_eq, hn]
  dsimp only
  rw [if_neg (Nat.not_lt.2 hroom), hlen]
  rfl

end

section
variable {s : State} {r : Req} {b : BankNo} (ht : TakesBulk s (r.frame 0x21)) (h0 : r.lane = 0)
include ht h0

theorem offerPut_noStaging (hn : s.stagingBank = none) :
    ∃ t, exec (.offerPut r) s = .next t ∧ BulkAnswered s t 0x21 r .badState [] ∧ BulkFrame s t := by
  refine bulkRequest_refused h0 ht _ ?_
  rw [onStaging, stagingBank_congr (bulkTaken_banks ..), hn]

variable (hb : s.stagingBank = some b)
include hb

theorem offerPut_refused {o : OutcomeCode} {fields : List Byte}
    (he : offerPutBody r.payload b (bulkTaken (r.frame 0x21) s) =
      (bulkTaken (r.frame 0x21) s, .reply o fields)) :
    ∃ t, exec (.offerPut r) s = .next t ∧ BulkAnswered s t 0x21 r o fields ∧ BulkFrame s t :=
  bulkRequest_refused h0 ht _ ((onStaging_some hb ..).trans he)

theorem offerPut_length (h : field r.payload 0 1 = 0 ∨ 5 < field r.payload 0 1 ∨
    r.payload.length ≠ 1 + field r.payload 0 1 * 32) :
    ∃ t, exec (.offerPut r) s = .next t ∧ BulkAnswered s t 0x21 r .badField [0, 255] ∧ BulkFrame s t :=
  offerPut_refused ht h0 hb (by
    rw [offerPutBody]
    dsimp only
    rw [if_neg (not_countOk h), badLength_eq])

variable (hc : countOk 32 5 r.payload = true)
include hc

/-- The entries of an OFFER_PUT are tested against the offers of the bank before the take. -/
theorem offerPut_entry {o : OutcomeCode} {fields : List Byte}
    (ha : entriesRefusal 2 offerChecks ((s.bank b).offers.map (·.id)) 1 (entriesOf 32 r.payload) =
      some (.reply o fields)) :
    ∃ t, exec (.offerPut r) s = .next t ∧ BulkAnswered s t 0x21 r o fields ∧ BulkFrame s t :=
  offerPut_refused ht h0 hb (offerPutBody_refused hc (by rw [bank_congr (bulkTaken_banks ..), ha]))

variable (hn : entriesRefusal 2 offerChecks ((s.bank b).offers.map (·.id)) 1 (entriesOf 32 r.payload) = none)
include hn

theorem offerPut_full (hfull : 384 < (s.bank b).offers.length + (entriesOf 32 r.payload).length) :
    ∃ t, exec (.offerPut r) s = .next t ∧
      BulkAnswered s t 0x21 r .full (enc 2 (s.bank b).offers.length) ∧ BulkFrame s t := by
  have hbank : (bulkTaken (r.frame 0x21) s).bank b = s.bank b := bank_congr (bulkTaken_banks ..) b
  have hbody := offerPutBody_full (s := bulkTaken (r.frame 0x21) s) (b := b) hc (by rw [hbank, hn])
    (by rw [hbank]; exact hfull)
  rw [hbank] at hbody
  exact offerPut_refused ht h0 hb hbody

theorem offerPut_takes (hroom : (s.bank b).offers.length + (entriesOf 32 r.payload).length ≤ 384) :
    ∃ t, exec (.offerPut r) s = .next t ∧
      BulkAnswered s t 0x21 r .ok (enc 2 ((s.bank b).offers.length + (entriesOf 32 r.payload).length) ++ [0, 1]) ∧
      t.bank b = (s.bank b).withOffers ((entriesOf 32 r.payload).map offerOf) ∧
      (∀ d, d ≠ b → t.bank d = s.bank d) ∧ BulkFrame { s with banks := t.banks } t := by
  have hbank : (bulkTaken (r.frame 0x21) s).bank b = s.bank b := bank_congr (bulkTaken_banks ..) b
  have hbody := offerPutBody_ok (s := bulkTaken (r.frame 0x21) s) (b := b) hc (by rw [hbank, hn])
    (by rw [hbank]; exact hroom)
  rw [hbank] at hbody
  exact bulkRequest_setsBank h0 ht _ ((onStaging_some hb ..).trans hbody)

end

/-- Settles O34: the first entry that fails, and the offers inserted in id order. -/
theorem offerPutInsertsInIdOrder : Obligations.OfferPutInsertsInIdOrder := by
  intro s r ht h0
  refine ⟨offerPut_noStaging ht h0, fun b hb h => offerPut_length ht h0 hb h,
    fun b es hb h1 h5 hlen hes => ?_⟩
  obtain rfl : es = entriesOf 32 r.payload := hes
  have hc := countOk_iff.2 ⟨h1, h5, hlen⟩
  have hnew : ∀ x : List Byte, (∀ o ∈ (s.bank b).offers, o.id ≠ field x 0 2) →
      field x 0 2 ∉ (s.bank b).offers.map (·.id) := fun x hx hm => by
    obtain ⟨o, ho, hid⟩ := List.mem_map.1 hm
    exact hx o ho hid
  refine ⟨fun n e he hok hd hs => ?_, fun hok hd hs horder => ?_⟩
  · have hs' := fun x hx => hnew x (hs x hx)
    refine ⟨fun off hoff => offerPut_entry ht h0 hb hc ?_, fun hgood hrep => offerPut_entry ht h0 hb hc ?_⟩
    · rw [Nat.add_comm n 1]
      exact entriesRefusal_invalid he hok hd hs' 1 (firstFails_iff.1 hoff)
    · rw [Nat.add_comm n 1]
      refine entriesRefusal_repeats he hok hd hs' 1 hgood (hrep.imp_left fun ⟨o, ho, hid⟩ => ?_)
      exact List.mem_map.2 ⟨o, ho, hid⟩
  · have hn := entriesRefusal_none 1 hok hd fun x hx => hnew x (hs x hx)
    refine ⟨fun hroom => ?_, offerPut_full ht h0 hb hc hn⟩
    obtain ⟨t, hrun, ha, hbank, hother, hf⟩ := offerPut_takes ht h0 hb hc hn hroom
    have hids : ((entriesOf 32 r.payload).map offerOf).map (·.id) =
        (entriesOf 32 r.payload).map fun e => field e 0 2 := List.map_map ..
    refine ⟨t, hrun, ha, by rw [hbank]; rfl, ?_, ?_, hother, hf⟩
    · rw [hbank]
      refine insertOffers_inOrder horder (by rw [hids]; exact hd) fun o ho x hx => ?_
      obtain ⟨e, he, rfl⟩ := List.mem_map.1 ho
      exact hs e he x hx
    · rw [hbank]
      exact insertOffers_perm ..

end Sys2Proof.Machine


/-! OVERRIDE (R108, R109, R115): the checks of its body in their order, and the line edited. -/

namespace Sys2Proof.Machine

/-! ### The checks of OVERRIDE (R108) -/

/-- A line with another override (R109). -/
def Line.withOverride (o : Override) (ln : Line) : Line := { ln with override := some o }

/-- The override a payload asks for (R109). -/
def overrideOf (p : List Byte) : Override := { price := field p 1 4, supervisor := field p 5 3, reason := field p 8 1 }

theorem overrideBody_bad {p : List Byte} {c : CtxNo} {ln : Line} {u : State} {off : Nat}
    (h : firstBad (overrideChecks p) = some off) : overrideBody p c ln u = (u, badField 0 off) := by
  simp only [overrideBody, h]

section
variable {p : List Byte} {c : CtxNo} {ln : Line} {u : State} (h : firstBad (overrideChecks p) = none)
include h

theorem overrideBody_noAuthority (he : u.supervisor (field p 5 3) = none) :
    overrideBody p c ln u = (u, .reply .noAuthority (enc 3 (field p 5 3))) := by
  simp only [overrideBody, h, he]

variable {e : Supervisor} (he : u.supervisor (field p 5 3) = some e)
include he

theorem overrideBody_overList (hp : ln.list < field p 1 4) :
    overrideBody p c ln u = (u, .reply .overList (enc 4 ln.list)) := by
  simp only [overrideBody, h, he, if_pos hp]

variable (hp : field p 1 4 ≤ ln.list)
include hp

theorem overrideBody_lineLimit (hb : e.lineLimit < reductionPoints ln.list (field p 1 4)) :
    overrideBody p c ln u = (u,
      .reply .limit ([1] ++ enc 2 (reductionPoints ln.list (field p 1 4)) ++ enc 2 e.lineLimit)) := by
  simp only [overrideBody, h, he, if_neg (Nat.not_lt.2 hp), if_pos hb]

variable (hb : reductionPoints ln.list (field p 1 4) ≤ e.lineLimit)
include hb

theorem overrideBody_belowFloor (hf : e.level ≠ 3 ∧ field p 1 4 < ln.floor) :
    overrideBody p c ln u = (u, .reply .belowFloor (enc 4 ln.floor ++ enc 1 e.level)) := by
  simp only [overrideBody, h, he, if_neg (Nat.not_lt.2 hp), if_neg (Nat.not_lt.2 hb), if_pos hf]

variable (hf : e.level = 3 ∨ ln.floor ≤ field p 1 4) {ls : List Line}
  (hls : replaceLine (ln.withOverride (overrideOf p)) (u.ctx c).lines = ls)
include hf hls

theorem overrideBody_basketLimit (hs : e.basketCap < cumulative (field p 5 3) ls) :
    overrideBody p c ln u = (u,
      .reply .limit ([2] ++ enc 4 (cumulative (field p 5 3) ls) ++ enc 4 e.basketCap)) := by
  subst hls
  have hfloor : ¬ (e.level ≠ 3 ∧ field p 1 4 < ln.floor) := by omega
  simp only [overrideBody, h, he, if_neg (Nat.not_lt.2 hp), if_neg (Nat.not_lt.2 hb), if_neg hfloor]
  exact if_pos hs

theorem overrideBody_ok (hs : cumulative (field p 5 3) ls ≤ e.basketCap) :
    overrideBody p c ln u = (changeLines c ls u,
      .reply .ok (enc 1 ln.number ++ enc 4 (field p 1 4) ++ enc 4 (ln.qty * (ln.list - field p 1 4))
        ++ enc 2 (reductionPoints ln.list (field p 1 4)) ++ enc 4 (cumulative (field p 5 3) ls)
        ++ enc 4 e.basketCap)) := by
  subst hls
  have hfloor : ¬ (e.level ≠ 3 ∧ field p 1 4 < ln.floor) := by omega
  simp only [overrideBody, h, he, if_neg (Nat.not_lt.2 hp), if_neg (Nat.not_lt.2 hb), if_neg hfloor]
  exact if_neg (Nat.not_lt.2 hs)

end

/-! ### The answers of OVERRIDE (R108, R109) -/

/-- Settles O21: the checks of the body in their order, on the list with the line overridden. -/
theorem overrideIsCheckedAgainstTheSupervisor : Obligations.OverrideIsCheckedAgainstTheSupervisor := by
  intro s r l c a ln price sup ht hb hlen hx hm hv hn hprice hsup
  have hctx : (laneTaken (r.frame 0x05) l s).ctx c = s.ctx c := laneTaken_ctx ..
  have hsupervisor : (laneTaken (r.frame 0x05) l s).supervisor sup = s.supervisor sup := by
    simp [State.supervisor]
  have hrun := basketRequest_takes ht hb hlen (fun _ c => onLine r.payload c (overrideBody r.payload c))
  rw [onLine_active _ (hctx ▸ hx) (hctx ▸ hm) hn.symm hv] at hrun
  have hrefuse : ∀ o fields, overrideBody r.payload c ln (laneTaken (r.frame 0x05) l s) =
      (laneTaken (r.frame 0x05) l s, .reply o fields) →
      ∃ t, exec (.override r) s = .next t ∧ LaneAnswered s t 0x05 r o (s.ctx c).revision fields := by
    intro o fields hbody
    rw [hbody] at hrun
    obtain ⟨t, ht', ha, -⟩ := answered_on hb 0x05 r o fields
    exact ⟨t, hrun.trans ht', ha⟩
  subst hprice hsup
  refine ⟨fun off hoff => hrefuse _ _ (overrideBody_bad (firstFails_iff.1 hoff)), fun h1 h2 => ?_⟩
  have hok : firstBad (overrideChecks r.payload) = none := firstBad_none.2 (by simp [overrideChecks, maxPrice, h1, h2])
  refine ⟨fun he => hrefuse _ _ (overrideBody_noAuthority hok (hsupervisor.trans he)), ?_⟩
  intro e bp sum ls he hbp hls hsum
  have he' := hsupervisor.trans he
  obtain rfl : bp = reductionPoints ln.list (field r.payload 1 4) := hbp
  have hrep : replaceLine (ln.withOverride (overrideOf r.payload)) ((laneTaken (r.frame 0x05) l s).ctx c).lines = ls := by
    rw [hctx, hls]
    exact hx.replaceLine hm (f := Line.withOverride (overrideOf r.payload)) fun _ => rfl
  subst hsum
  refine ⟨fun hp hbp hf hs => ?_, fun hp => hrefuse _ _ (overrideBody_overList hok he' hp),
    fun hp hbp => hrefuse _ _ (overrideBody_lineLimit hok he' hp hbp),
    fun hp hbp hl hf => hrefuse _ _ (overrideBody_belowFloor hok he' hp hbp ⟨hl, hf⟩),
    fun hp hbp hf hs => hrefuse _ _ (overrideBody_basketLimit hok he' hp hbp hf hrep hs)⟩
  rw [overrideBody_ok hok he' hp hbp hf hrep hs, changeLines, hctx] at hrun
  obtain ⟨t, ht', hrest⟩ := changed_on hb 0x05 r (x := { s.ctx c with lines := ls }) hb.place _
  exact ⟨t, hrun.trans ht', hrest⟩

end Sys2Proof.Machine


/-! PRESENT_COUPON and WITHDRAW_COUPON (R86 to R97): the checks in their order, the claim of a serial, and the coupon
list. -/

namespace Sys2Proof.Machine

/-! ### Positions in a coupon list (R86) -/

theorem positionFrom_none {p : Coupon → Bool} {ks : List Coupon} (h : ∀ y ∈ ks, p y = false) (i : Nat) :
    positionFrom p i ks = none := by
  induction ks generalizing i with
  | nil => rfl
  | cons k ks ih =>
    rw [positionFrom, h k List.mem_cons_self, if_neg (by decide)]
    exact ih (fun y hy => h y (List.mem_cons_of_mem k hy)) _

theorem positionFrom_some {p : Coupon → Bool} {ks : List Coupon} {n : Nat} {y : Coupon} (hn : ks[n]? = some y)
    (hy : p y = true) (hb : ∀ z ∈ ks.take n, p z = false) (i : Nat) : positionFrom p i ks = some (i + n) := by
  induction ks generalizing i n with
  | nil => cases hn
  | cons k ks ih =>
    cases n with
    | zero =>
      obtain rfl : k = y := by simpa using hn
      rw [positionFrom, hy, if_pos rfl]
      rfl
    | succ n =>
      rw [List.take_succ_cons] at hb
      rw [positionFrom, hb k List.mem_cons_self, if_neg (by decide),
        ih (by simpa using hn) (fun z hz => hb z (List.mem_cons_of_mem k hz)), Nat.add_assoc, Nat.add_comm 1 n]

theorem keys_iff {id : Nat} {k : Coupon} : k.keys id = true ↔ k.kind = .offerKey id := by
  unfold Coupon.keys
  cases k.kind <;> simp

theorem not_keys {id : Nat} {k : Coupon} (h : k.kind ≠ .offerKey id) : k.keys id = false := by
  rw [← Bool.not_eq_true, keys_iff]
  exact h

/-! ### The checks of PRESENT_COUPON (R93) -/

/-- The field checks as the manual writes them. -/
theorem couponChecks_eq (p : List Byte) : couponChecks p =
    [ (decide (field p 6 1 = 1 ∨ field p 6 1 = 2), 6), (decide (field p 6 1 = 1 → 1 ≤ field p 7 2), 7),
      (decide (field p 6 1 = 2 → 1 ≤ field p 9 4 ∧ field p 9 4 ≤ 999999), 9),
      (decide (field p 6 1 = 2 → field p 13 4 ≤ 99999999), 13) ] := by
  have himp : ∀ (n : Nat) (q : Prop) [Decidable q], (field p 6 1 != n || decide q) = decide (field p 6 1 = n → q) := by
    intro n q _
    rw [Bool.eq_iff_iff]
    by_cases h : field p 6 1 = n <;> simp [h]
  have hor : (field p 6 1 == 1 || field p 6 1 == 2) = decide (field p 6 1 = 1 ∨ field p 6 1 = 2) := by
    rw [Bool.eq_iff_iff]; simp
  have hand : (decide (1 ≤ field p 9 4) && decide (field p 9 4 ≤ maxPrice)) =
      decide (1 ≤ field p 9 4 ∧ field p 9 4 ≤ maxPrice) := (Bool.decide_and ..).symm
  unfold couponChecks
  dsimp only
  rw [hand, hor]
  simp only [himp]
  rfl

/-- A coupon with its fields in range is the one the body reads, and passes the field checks. -/
theorem PresentedCoupon.read {p : List Byte} {k : Coupon} (h : PresentedCoupon p k) :
    firstBad (couponChecks p) = none ∧ couponOf p = k := by
  rw [couponChecks_eq, firstBad_none]
  rcases h with ⟨hk, h1, rfl⟩ | ⟨hk, h1, h2, h3, rfl⟩
  · exact ⟨by simp [hk, h1], by rw [couponOf, if_pos hk]⟩
  · exact ⟨by simp [hk, h1, h2, h3], by rw [couponOf, hk, if_neg (by decide)]⟩

section
variable {k : Coupon} {ks : List Coupon}

theorem listRefusal_full (h : ¬ CouponRoom k ks) :
    listRefusal k ks = some (.reply .full (enc 1 ks.length ++ enc 1 (storeValues ks))) := by
  unfold listRefusal
  by_cases hlen : 12 ≤ ks.length
  · rw [if_pos hlen]
    rfl
  · rw [if_neg hlen]
    refine if_pos ?_
    by_contra hc
    refine h ⟨Nat.lt_of_not_le hlen, fun value least hk => ?_⟩
    by_contra hfour
    exact hc ⟨by rw [hk]; rfl, Nat.le_of_not_lt hfour⟩

/-- With room in the list the two refusals FULL do not apply. -/
theorem CouponRoom.passes (h : CouponRoom k ks) : ¬ 12 ≤ ks.length ∧ ¬ (k.kind.code = 2 ∧ 4 ≤ storeValues ks) := by
  obtain ⟨hlen, hstore⟩ := h
  refine ⟨Nat.not_le.2 hlen, fun ⟨hcode, hfour⟩ => ?_⟩
  cases hk : k.kind with
  | offerKey o => rw [hk] at hcode; exact absurd hcode (by simp [CouponKind.code])
  | storeValue value least => exact absurd (hstore value least hk) (Nat.not_lt.2 hfour)

variable (hroom : CouponRoom k ks)
include hroom

theorem listRefusal_serial {n : Nat} {y : Coupon} (hs : k.serial ≠ 0) (hn : ks[n]? = some y)
    (hy : y.serial = k.serial) (hb : ∀ z ∈ ks.take n, z.serial ≠ k.serial) :
    listRefusal k ks = some (.reply .duplicate (enc 1 (n + 1))) := by
  obtain ⟨hlen, hstore⟩ := hroom.passes
  have hpos : positionOf (·.serial == k.serial) ks = some (1 + n) :=
    positionFrom_some hn (by simpa using hy) (fun z hz => by simpa using hb z hz) 1
  simp only [listRefusal, if_neg hlen, if_neg hstore, if_neg hs, hpos, Nat.add_comm 1 n]

variable (hnew : k.serial ≠ 0 → ∀ y ∈ ks, y.serial ≠ k.serial)
include hnew

omit hroom in
theorem newSerial_position : (if k.serial = 0 then none else positionOf (·.serial == k.serial) ks) = none := by
  split
  · rfl
  · next hs => exact positionFrom_none (fun y hy => by simpa using hnew hs y hy) 1

theorem listRefusal_offer {id n : Nat} {y : Coupon} (hk : k.kind = .offerKey id) (hn : ks[n]? = some y)
    (hy : y.kind = .offerKey id) (hb : ∀ z ∈ ks.take n, z.kind ≠ .offerKey id) :
    listRefusal k ks = some (.reply .duplicate (enc 1 (n + 1))) := by
  have hpos : positionOf (Coupon.keys id) ks = some (1 + n) :=
    positionFrom_some hn (keys_iff.2 hy) (fun z hz => not_keys (hb z hz)) 1
  obtain ⟨hlen, hstore⟩ := hroom.passes
  rw [hk] at hstore
  simp only [listRefusal, if_neg hlen, hk, if_neg hstore, newSerial_position hnew, hpos, Option.map_some,
    Nat.add_comm 1 n]

theorem listRefusal_none (hkey : ∀ id, k.kind = .offerKey id → ∀ y ∈ ks, y.kind ≠ .offerKey id) :
    listRefusal k ks = none := by
  obtain ⟨hlen, hstore⟩ := hroom.passes
  cases hk : k.kind with
  | storeValue value least =>
    rw [hk] at hstore
    simp only [listRefusal, if_neg hlen, hk, if_neg hstore, newSerial_position hnew]
  | offerKey id =>
    rw [hk] at hstore
    have hpos : positionOf (Coupon.keys id) ks = none :=
      positionFrom_none (fun y hy => not_keys (hkey id hk y hy)) 1
    simp only [listRefusal, if_neg hlen, hk, if_neg hstore, newSerial_position hnew, hpos, Option.map_none]

end

section
variable {k : Coupon} {a : Attachment} {x : Bank} {id : Nat}

theorem offerRefusal_unknown (hk : k.kind = .offerKey id) (ho : x.offer id = none) :
    offerRefusal k a x = some (.reply .unknownOffer (enc 2 id ++ enc 2 a.generation)) := by
  simp only [offerRefusal, hk, ho]

theorem offerRefusal_window {o : Offer} (hk : k.kind = .offerKey id) (ho : x.offer id = some o)
    (hw : a.day < o.firstDay ∨ o.lastDay < a.day) : offerRefusal k a x =
      some (.reply .outOfWindow (enc 2 id ++ enc 2 o.firstDay ++ enc 2 o.lastDay ++ enc 2 a.day)) := by
  have hout : ¬ o.inWindow a.day = true := by
    rw [Offer.inWindow, Bool.and_eq_true, decide_eq_true_eq, decide_eq_true_eq]; omega
  simp only [offerRefusal, hk, ho, if_neg hout]

theorem offerRefusal_none (h : ∀ id, k.kind = .offerKey id →
    ∃ o, x.offer id = some o ∧ o.firstDay ≤ a.day ∧ a.day ≤ o.lastDay) : offerRefusal k a x = none := by
  unfold offerRefusal
  cases hk : k.kind with
  | storeValue value least => rfl
  | offerKey id =>
    obtain ⟨o, ho, hlo, hhi⟩ := h id hk
    have hin : o.inWindow a.day = true := by
      rw [Offer.inWindow, Bool.and_eq_true, decide_eq_true_eq, decide_eq_true_eq]; exact ⟨hlo, hhi⟩
    dsimp only
    rw [ho]
    exact if_pos hin

end

section
variable {p : List Byte} {c : CtxNo} {u : State} {k : Coupon}

theorem presentCouponBody_bad {off : Nat} (h : firstBad (couponChecks p) = some off) :
    presentCouponBody p c u = (u, badField 0 off) := by
  simp only [presentCouponBody, h]

variable (h : PresentedCoupon p k)
include h

theorem presentCouponBody_list {b : Answer} (hl : listRefusal k (u.ctx c).coupons = some b) :
    presentCouponBody p c u = (u, b) := by
  obtain ⟨hok, rfl⟩ := h.read
  simp only [presentCouponBody, hok, hl]

variable (hl : listRefusal k (u.ctx c).coupons = none) {a : Attachment} (hp : (u.ctx c).place = .attached a)
include hl hp

theorem presentCouponBody_offer {b : Answer} (ho : offerRefusal k a (u.bank a.bank) = some b) :
    presentCouponBody p c u = (u, b) := by
  obtain ⟨hok, rfl⟩ := h.read
  simp only [presentCouponBody, hok, hl, Context.attachment_attached hp, Option.bind_some, ho]

theorem presentCouponBody_claims (ho : offerRefusal k a (u.bank a.bank) = none) :
    presentCouponBody p c u = claimCoupon k c u := by
  obtain ⟨hok, rfl⟩ := h.read
  simp only [presentCouponBody, hok, hl, Context.attachment_attached hp, Option.bind_some, ho]

end

/-- A request PRESENT_COUPON on a basket whose body refuses the coupon: the reply, and nothing else of the basket. -/
theorem presentCoupon_refused {s : State} {r : Req} {l : LaneNo} {c : CtxNo} {a : Attachment}
    (ht : TakesLane s 0x07 r l) (hb : OnBasket s l c a) (hlen : r.payload.length = 17) {o : OutcomeCode}
    {fields : List Byte} (hbody : presentCouponBody r.payload c (laneTaken (r.frame 0x07) l s) =
      (laneTaken (r.frame 0x07) l s, .reply o fields)) :
    ∃ t, exec (.presentCoupon r) s = .next t ∧ LaneAnswered s t 0x07 r o (s.ctx c).revision fields ∧
      t.ctxs = s.ctxs ∧ LaneFrame s t := by
  have hrun := basketRequest_takes ht hb hlen fun _ => presentCouponBody r.payload
  rw [hbody] at hrun
  obtain ⟨t, ht', ha, hctxs, -, -, -, hf⟩ := answered_on hb 0x07 r o fields
  exact ⟨t, hrun.trans ht', ha, hctxs, hf⟩

/-- Settles O22: the field checks, then the refusals of the list and of the pinned bank in their order. -/
theorem presentCouponChecksTheCoupon : Obligations.PresentCouponChecksTheCoupon := by
  intro s r l c a kind ht hb hlen hkind
  subst hkind
  have hctx : (laneTaken (r.frame 0x07) l s).ctx c = s.ctx c := laneTaken_ctx ..
  have hbank : (laneTaken (r.frame 0x07) l s).bank a.bank = s.bank a.bank := bank_congr (laneTaken_banks ..) _
  have hplace : ((laneTaken (r.frame 0x07) l s).ctx c).place = .attached a := hctx ▸ hb.place
  have hanswer : ∀ {o fields}, presentCouponBody r.payload c (laneTaken (r.frame 0x07) l s) =
      (laneTaken (r.frame 0x07) l s, .reply o fields) →
      ∃ t, exec (.presentCoupon r) s = .next t ∧ LaneAnswered s t 0x07 r o (s.ctx c).revision fields := by
    intro o fields hbody
    obtain ⟨t, hrun, ha, -⟩ := presentCoupon_refused ht hb hlen hbody
    exact ⟨t, hrun, ha⟩
  refine ⟨fun off hoff => hanswer (presentCouponBody_bad ?_), fun k ks hk hks => ⟨fun hfull => ?_, fun hroom => ?_⟩⟩
  · rw [couponChecks_eq]
    exact firstFails_iff.1 hoff
  · subst hks
    exact hanswer (presentCouponBody_list hk (by rw [hctx]; exact listRefusal_full hfull))
  · subst hks
    refine ⟨fun n y hs hn hy hbefore => hanswer (presentCouponBody_list hk ?_), fun hnew id hid => ⟨?_, fun hkey => ?_⟩⟩
    · rw [hctx]
      exact listRefusal_serial hroom hs hn hy hbefore
    · intro n y hn hy hbefore
      exact hanswer (presentCouponBody_list hk (by rw [hctx]; exact listRefusal_offer hroom hnew hid hn hy hbefore))
    · have hl : listRefusal k ((laneTaken (r.frame 0x07) l s).ctx c).coupons = none := by
        rw [hctx]
        refine listRefusal_none hroom hnew fun id' hid' => ?_
        obtain rfl : id = id' := by rw [hid] at hid'; injection hid'
        exact hkey
      refine ⟨fun ho => hanswer (presentCouponBody_offer hk hl hplace ?_),
        fun o ho hw => hanswer (presentCouponBody_offer hk hl hplace ?_)⟩
      · rw [hbank]
        exact offerRefusal_unknown hid ho
      · rw [hbank]
        exact offerRefusal_window hid ho hw

end Sys2Proof.Machine


/-! PRESENT_COUPON and WITHDRAW_COUPON where the claim table changes (R90, R91, R94, R97): the coupon list and the entry
of its serial. -/

namespace Sys2Proof.Machine

/-! ### A change of a context and the claim table answered OK (R7) -/

theorem LaneFrame.claims {s t : State} (h : LaneFrame s t) : t.claims = s.claims := (congrArg State.claims h.1 :)

theorem LaneFrame.conds {s t : State} (h : LaneFrame s t) : t.conds = s.conds := (congrArg State.conds h.1 :)

/-- A body that writes its context, its lane, the claim table and the conditions. -/
theorem bodyWrote_claims (s : State) (k : Byte) (r : Req) (l : LaneNo) (c : CtxNo) (x : Context) (y : Lane)
    (es : List ClaimEntry) (d : CondUnit) : BodyWrote s { s with claims := es, conds := d }
      { ((laneTaken (r.frame k) l s).setCtx c x).setLane l y with claims := es, conds := d } k r l c x y :=
  ⟨by simp, by simp [State.setLane], by simp, by simp, by simp, by simp, by apply State.ext <;> simp, rfl, rfl, rfl⟩

/-- A request on a basket whose body changes the claim table and its context and answers OK: reply, basket, timers,
claims and frame. -/
theorem changed_claims_on {s v : State} {l : LaneNo} {c : CtxNo} {a : Attachment} (hb : OnBasket s l c a) {k : Byte}
    {r : Req} (hv : v = { laneTaken (r.frame k) l s with claims := v.claims, conds := v.conds }) {x : Context}
    (hx : x.place = .attached a) (fields : List Byte) :
    ∃ t, Host.Outcome.next (φ := Fault) (ρ := Refusal) (settleClaims (answerLane k r l
        (bumpRevision c (v.setCtx c x), .reply .ok fields))) = .next t ∧
      BasketChanged s t k r l c (revised a x) fields ∧ t.accounts = accountsTouched s c ∧
      LaneFrame { s with claims := v.claims, conds := v.conds } t := by
  obtain ⟨hst, hc, -, hal⟩ := hb
  have hlane : v.lane l = watched s l := by
    rw [lane_congr (s := laneTaken (r.frame k) l s) (by rw [hv]), laneTaken_lane_on hst, if_pos rfl]
  have hbody : bumpRevision c (v.setCtx c x) =
      { ((laneTaken (r.frame k) l s).setCtx c (revised a x)).setLane l
          { watched s l with state := .opened, subtotalOwed := false } with claims := v.claims, conds := v.conds } := by
    rw [bumpRevision_setCtx hx, hal, hlane, overtaken_watched hst, hv]
    rfl
  have hw := bodyWrote_claims s k r l c (revised a x)
    { watched s l with state := .opened, subtotalOwed := false } v.claims v.conds
  obtain ⟨t, ht, ha, hctx, hl, hco, hlo, hacc, hf⟩ := hw.answered (hw.laneRevision hc) .ok fields
  exact ⟨t, by rw [hbody]; exact ht, ⟨ha, hctx, hco, hl, hlo⟩, hacc.trans (by simpa using laneTaken_accounts hc), hf⟩

/-! ### The claim of a presented coupon (R89 to R94) -/

/-- The context with a coupon at the end of its list (R94). -/
def Context.withCoupon (x : Context) (k : Coupon) : Context := { x with coupons := x.coupons ++ [k] }

/-- The claim of a serial by a context (R88). -/
def claimBy (u : State) (c : CtxNo) (serial : Nat) : ClaimEntry :=
  { serial := serial, state := .claimed c (u.ctx c).incarnation }

theorem lookupRefusal_new {u : State} {serial : Nat} (h : serial = 0 ∨ u.claim serial = none) :
    lookupRefusal u serial = none := by
  unfold lookupRefusal
  split
  · rfl
  · next hz => rw [h.resolve_left hz]

theorem lookupRefusal_congr {s u : State} (hc : u.claims = s.claims) (hx : u.ctxs = s.ctxs) (serial : Nat) :
    lookupRefusal u serial = lookupRefusal s serial := by
  unfold lookupRefusal State.claim State.ctx
  rw [hc, hx]

section
variable {u : State} {c : CtxNo} {serial : Nat}

theorem makeClaim_zero (hz : serial = 0) : makeClaim c serial u = some (u, none) := by
  simp only [makeClaim, if_pos hz]

variable (hs : serial ≠ 0)
include hs

theorem makeClaim_room (hroom : u.claims.length < 96) :
    makeClaim c serial u = some ({ u with claims := u.claims ++ [claimBy u c serial] }, none) := by
  simp only [makeClaim, if_neg hs, if_pos hroom, claimBy]

variable (hfull : 96 ≤ u.claims.length)
include hfull

theorem makeClaim_evicts {old : ClaimEntry} (ho : u.oldestSpent = some old) : makeClaim c serial u =
    some ({ u with claims := u.claims.erase old ++ [claimBy u c serial] }, some old.serial) := by
  simp only [makeClaim, if_neg hs, if_neg (Nat.not_lt.2 hfull), ho, claimBy]

theorem makeClaim_full (ho : u.oldestSpent = none) : makeClaim c serial u = none := by
  simp only [makeClaim, if_neg hs, if_neg (Nat.not_lt.2 hfull), ho]

end

section
variable {k : Coupon} {c : CtxNo} {u : State}

theorem claimCoupon_refused {b : Answer} (h : lookupRefusal u k.serial = some b) : claimCoupon k c u = (u, b) := by
  simp only [claimCoupon, h]

variable (hl : lookupRefusal u k.serial = none)
include hl

theorem claimCoupon_full (hm : makeClaim c k.serial u = none) :
    claimCoupon k c u = (startExhaustion u, .reply .claimsFull (enc 2 u.claims.length)) := by
  simp only [claimCoupon, hl, hm]

theorem claimCoupon_ok {v : State} {evicted : Option Nat} (hm : makeClaim c k.serial u = some (v, evicted)) :
    claimCoupon k c u = (bumpRevision c (v.setCtx c ((v.ctx c).withCoupon k)),
      .reply .ok (enc 1 ((v.ctx c).coupons ++ [k]).length ++ enc 2 ((v.ctx c).revision + 1).toNat
        ++ couponCounts ((v.ctx c).coupons ++ [k]) ++ evictionFields evicted)) := by
  have hctx : (bumpRevision c (v.setCtx c ((v.ctx c).withCoupon k))).ctx c =
      ((v.ctx c).withCoupon k).bumped := by
    rw [bumpRevision_ctx, if_pos rfl, ctx_setCtx_same]
  have hrev : ((v.ctx c).withCoupon k).bumped.revision = (v.ctx c).revision + 1 := rfl
  have hlist : ((v.ctx c).withCoupon k).bumped.coupons = (v.ctx c).coupons ++ [k] := rfl
  simp only [claimCoupon, hl, hm]
  show (bumpRevision c (v.setCtx c ((v.ctx c).withCoupon k)), _) = _
  rw [show appendCoupon c k v = bumpRevision c (v.setCtx c ((v.ctx c).withCoupon k)) from rfl, hctx, hrev, hlist]

end

/-- The coupon fits: the body goes on to the claim (R93, checks 3 to 8). -/
theorem presentCouponBody_fits {s : State} {r : Req} {l : LaneNo} {c : CtxNo} {a : Attachment} {k : Coupon}
    (hb : OnBasket s l c a) (hk : PresentedCoupon r.payload k) (hf : CouponFits s a (s.ctx c) k) :
    presentCouponBody r.payload c (laneTaken (r.frame 0x07) l s) =
      claimCoupon k c (laneTaken (r.frame 0x07) l s) := by
  obtain ⟨hroom, hnew, hkey⟩ := hf
  have hctx : (laneTaken (r.frame 0x07) l s).ctx c = s.ctx c := laneTaken_ctx ..
  refine presentCouponBody_claims hk ?_ (hctx ▸ hb.place) ?_
  · rw [hctx]
    exact listRefusal_none hroom hnew fun id hid => (hkey id hid).1
  · rw [bank_congr (laneTaken_banks ..)]
    exact offerRefusal_none fun id hid => (hkey id hid).2

section
variable {s : State} {r : Req} {l : LaneNo} {c : CtxNo} {a : Attachment} {k : Coupon} (ht : TakesLane s 0x07 r l)
  (hb : OnBasket s l c a) (hlen : r.payload.length = 17) (hk : PresentedCoupon r.payload k)
  (hf : CouponFits s a (s.ctx c) k)
include ht hb hlen hk hf

/-- A coupon accepted: `es` is the claim table after it. -/
theorem presentCoupon_accepted {es : List ClaimEntry} {evicted : Option Nat}
    (hl : lookupRefusal s k.serial = none)
    (hm : makeClaim c k.serial (laneTaken (r.frame 0x07) l s) =
      some ({ laneTaken (r.frame 0x07) l s with claims := es }, evicted)) :
    ∃ t, exec (.presentCoupon r) s = .next t ∧
      BasketChanged s t 0x07 r l c (revised a { s.ctx c with coupons := (s.ctx c).coupons ++ [k] })
        (enc 1 ((s.ctx c).coupons ++ [k]).length ++ enc 2 ((s.ctx c).revision + 1).toNat
          ++ couponCounts ((s.ctx c).coupons ++ [k]) ++ evictionFields evicted) ∧
      t.claims = es ∧ t.accounts = accountsTouched s c ∧ LaneFrame { s with claims := t.claims } t := by
  have hctx : (laneTaken (r.frame 0x07) l s).ctx c = s.ctx c := laneTaken_ctx ..
  have hl' : lookupRefusal (laneTaken (r.frame 0x07) l s) k.serial = none :=
    (lookupRefusal_congr (laneTaken_claims ..) (laneTaken_ctxs ..) _).trans hl
  have hrun := basketRequest_takes ht hb hlen fun _ => presentCouponBody r.payload
  rw [presentCouponBody_fits hb hk hf, claimCoupon_ok hl' hm,
    show ({ laneTaken (r.frame 0x07) l s with claims := es } : State).ctx c = s.ctx c from hctx] at hrun
  obtain ⟨t, ht', hchanged, hacc, hframe⟩ := changed_claims_on (r := r) (k := 0x07)
    (v := { laneTaken (r.frame 0x07) l s with claims := es }) hb rfl (x := (s.ctx c).withCoupon k) hb.place _
  have hclaims : t.claims = es := hframe.claims
  refine ⟨t, hrun.trans ht', hchanged, hclaims, hacc, ?_⟩
  rw [hclaims]
  have hconds : ({ s with claims := es, conds := (laneTaken (r.frame 0x07) l s).conds } : State) =
      { s with claims := es } := by rw [laneTaken_conds]
  exact hconds ▸ hframe

/-- The table full of CLAIMED entries: CLAIMS_FULL is raised, and nothing of the basket changes (R91). -/
theorem presentCoupon_exhausted (hs : k.serial ≠ 0) (hn : s.claim k.serial = none) (hfull : 96 ≤ s.claims.length)
    (ho : s.oldestSpent = none) :
    ∃ t, exec (.presentCoupon r) s = .next t ∧
      LaneAnswered s t 0x07 r .claimsFull (s.ctx c).revision (enc 2 s.claims.length) ∧
      t.cond .claimsFull = { pending := true, detail := (s.cond .claimsFull).detail } ∧
      OtherConditionsKept s t .claimsFull ∧ t.notices = noticesAfter s .claimsFull s.notices ∧ t.ctxs = s.ctxs ∧
      t.lane l = watched s l ∧ OtherLanesKept s t l ∧ t.accounts = accountsTouched s c ∧
      LaneFrame { s with conds := t.conds, notices := t.notices } t := by
  have hclaims : (laneTaken (r.frame 0x07) l s).claims = s.claims := laneTaken_claims ..
  have hl : lookupRefusal (laneTaken (r.frame 0x07) l s) k.serial = none :=
    (lookupRefusal_congr hclaims (laneTaken_ctxs ..) _).trans (lookupRefusal_new (.inr hn))
  have hm : makeClaim c k.serial (laneTaken (r.frame 0x07) l s) = none :=
    makeClaim_full hs (by rw [hclaims]; exact hfull) (by rw [State.oldestSpent, hclaims]; exact ho)
  have hrun := basketRequest_takes ht hb hlen fun _ => presentCouponBody r.payload
  rw [presentCouponBody_fits hb hk hf, claimCoupon_full hl hm, hclaims, answerLane_reply] at hrun
  obtain ⟨htaken, hreserved, hlanes, hacc, hctxs, hframe, hraised, -⟩ := exhausted_leaves s 0x07 r l
    (laneReply 0x07 r l .claimsFull (enc 2 s.claims.length) (startExhaustion (laneTaken (r.frame 0x07) l s)))
  obtain ⟨hcond, hother, hnotices⟩ := hraised rfl
  obtain ⟨hst, hc, -⟩ := hb
  have hrev : (startExhaustion (laneTaken (r.frame 0x07) l s)).laneRevision l = (s.ctx c).revision := by
    have hlane : (startExhaustion (laneTaken (r.frame 0x07) l s)).lane l = (laneTaken (r.frame 0x07) l s).lane l :=
      lane_congr (by simp [startExhaustion]) l
    have hctx : (startExhaustion (laneTaken (r.frame 0x07) l s)).ctx c = s.ctx c :=
      ctx_congr (by simp [startExhaustion]) c
    have hlc : (watched s l).ctx = some c := hc
    rw [State.laneRevision, hlane, laneTaken_lane_on hst, if_pos rfl, hlc]
    dsimp only
    rw [hctx]
  refine ⟨_, hrun, ⟨htaken, hreserved, ?_⟩, hcond, hother, hnotices, hctxs, ?_, fun m hm' => ?_, ?_, hframe⟩
  · simp [startExhaustion, laneReply, ← hrev]
  · rw [lane_congr hlanes, touchIdle_lane_on hst, if_pos rfl]
  · rw [lane_congr hlanes, touchIdle_lane_on hst, if_neg hm']
  · rw [hacc]; simp [touchReservation, hc, accountsTouched]

/-- A serial that the table holds is refused by the state of its entry (R93). -/
theorem presentCoupon_held {o : OutcomeCode} {fields : List Byte}
    (ha : lookupRefusal s k.serial = some (.reply o fields)) :
    ∃ t, exec (.presentCoupon r) s = .next t ∧ LaneAnswered s t 0x07 r o (s.ctx c).revision fields ∧
      t.ctxs = s.ctxs ∧ LaneFrame s t := by
  refine presentCoupon_refused ht hb hlen ?_
  rw [presentCouponBody_fits hb hk hf]
  exact claimCoupon_refused ((lookupRefusal_congr (laneTaken_claims ..) (laneTaken_ctxs ..) _).trans ha)

end

/-- Settles O23: the claim made in the room there is, by an eviction or without a serial, and the refusals. -/
theorem presentCouponClaimsTheSerial : Obligations.PresentCouponClaimsTheSerial := by
  intro s r l c a k new ht hb hlen hk hf hnew
  have hclaims : (laneTaken (r.frame 0x07) l s).claims = s.claims := laneTaken_claims ..
  have hby : claimBy (laneTaken (r.frame 0x07) l s) c k.serial = new := by rw [hnew, claimBy, laneTaken_ctx]
  refine ⟨fun h => ?_, fun old hs hn hfull ho => ?_, fun hs hn hfull ho =>
    presentCoupon_exhausted ht hb hlen hk hf hs hn hfull ho,
    fun owner inc hs he => presentCoupon_held ht hb hlen hk hf (by rw [lookupRefusal, if_neg hs, he]; rfl),
    fun day hs he => presentCoupon_held ht hb hlen hk hf (by rw [lookupRefusal, if_neg hs, he])⟩
  · have hl : lookupRefusal s k.serial = none := lookupRefusal_new (h.imp_right fun ⟨hn, _⟩ => hn)
    by_cases hz : k.serial = 0
    · obtain ⟨t, hrun, hchanged, hc, hrest⟩ := presentCoupon_accepted (es := s.claims) ht hb hlen hk hf hl
        ((makeClaim_zero hz).trans (by rw [← hclaims]))
      refine ⟨t, hrun, ?_, ?_, hrest⟩
      · simpa only [couponCounts, evictionFields, encFlag, List.append_assoc, reduceIte, Bool.false_eq_true] using hchanged
      · rw [if_pos hz, hc]
    · obtain ⟨hn, hroom⟩ := h.resolve_left hz
      obtain ⟨t, hrun, hchanged, hc, hrest⟩ := presentCoupon_accepted ht hb hlen hk hf hl
        (makeClaim_room hz (by rw [hclaims]; exact hroom))
      refine ⟨t, hrun, ?_, ?_, hrest⟩
      · simpa only [couponCounts, evictionFields, encFlag, List.append_assoc, reduceIte, Bool.false_eq_true] using hchanged
      · rw [if_neg hz, hc, hclaims, hby]
  · obtain ⟨t, hrun, hchanged, hc, hrest⟩ := presentCoupon_accepted ht hb hlen hk hf (lookupRefusal_new (.inr hn))
      (makeClaim_evicts hs (by rw [hclaims]; exact hfull) (by rw [State.oldestSpent, hclaims]; exact ho))
    refine ⟨t, hrun, ?_, ?_, hrest⟩
    · simpa only [couponCounts, evictionFields, encFlag, List.append_assoc, reduceIte] using hchanged
    · rw [hc, hclaims, hby]

/-! ### WITHDRAW_COUPON (R96, R97) -/

/-- The entry a withdrawn coupon releases: that of its serial, where the context owns it (R97). -/
@[reducible] def releasedEntry (s : State) (c : CtxNo) (serial : Nat) (e : ClaimEntry) : Prop :=
  serial ≠ 0 ∧ e.serial = serial ∧ e.state = .claimed c (s.ctx c).incarnation

theorem releaseSerial_writes (c : CtxNo) (serial : Nat) (s : State) : releaseSerial c serial s =
    { s with claims := (releaseSerial c serial s).claims, conds := (releaseSerial c serial s).conds } := by
  unfold releaseSerial
  split
  · rfl
  · rw [removeClaims_eq]

theorem releaseSerial_claims (c : CtxNo) (serial : Nat) (s : State) :
    (releaseSerial c serial s).claims =
        s.claims.filter (fun e => ¬ (serial ≠ 0 ∧ e.serial = serial ∧ e.state = .claimed c (s.ctx c).incarnation)) ∧
      (releaseSerial c serial s).conds =
        if ∃ e ∈ s.claims, releasedEntry s c serial e then (endExhaustion s).conds else s.conds := by
  unfold releaseSerial
  split
  · next hz =>
    refine ⟨?_, ?_⟩
    · simp [hz]
    · rw [if_neg]
      rintro ⟨e, -, hs, -⟩
      exact hs hz
  · next hz =>
    have hmine : ∀ e : ClaimEntry, (e.serial == serial && e.ownedBy s c) = true ↔ releasedEntry s c serial e :=
      fun e => by
        rw [Bool.and_eq_true, beq_iff_eq, ClaimEntry.ownedBy_iff]
        exact ⟨fun ⟨h1, h2⟩ => ⟨hz, h1, h2⟩, fun ⟨_, h1, h2⟩ => ⟨h1, h2⟩⟩
    rw [removeClaims_eq]
    refine ⟨List.filter_congr fun e _ => ?_, ?_⟩
    · rw [Bool.eq_iff_iff, Bool.not_eq_true', ← Bool.not_eq_true, hmine, decide_eq_true_iff]
    · have hany : (s.claims.any fun e => e.serial == serial && e.ownedBy s c) = true ↔
          ∃ e ∈ s.claims, releasedEntry s c serial e := by
        rw [List.any_eq_true]
        simp only [hmine]
      by_cases h : ∃ e ∈ s.claims, releasedEntry s c serial e
      · rw [if_pos h, if_pos (hany.2 h)]
      · rw [if_neg h, if_neg fun ha => h (hany.1 ha)]

/-- The end of exhaustion changes CLAIMS_FULL alone (R91). -/
theorem exhaustionEnded_others {s t : State} {p : Prop} [Decidable p]
    (h : t.conds = if p then (endExhaustion s).conds else s.conds) : OtherConditionsKept s t .claimsFull := by
  split at h
  · refine ⟨by rw [h]; rfl, fun d hd => ?_⟩
    rw [cond_congr h]
    exact cond_setCond_ne _ _ hd
  · exact ⟨by rw [h], fun d _ => cond_congr h d⟩

/-- The context without a coupon of its list (R97). -/
def Context.withoutCoupon (x : Context) (n : Nat) : Context := { x with coupons := x.coupons.eraseIdx (n - 1) }

theorem withdrawCouponBody_bad {p : List Byte} {c : CtxNo} {u : State}
    (h : field p 0 1 = 0 ∨ (u.ctx c).coupons.length < field p 0 1) :
    withdrawCouponBody p c u = (u, badField 0 0) := by
  have hnone : (if field p 0 1 = 0 then none else (u.ctx c).coupons[field p 0 1 - 1]?) = none := by
    split
    · rfl
    · exact List.getElem?_eq_none (by omega)
  simp only [withdrawCouponBody, hnone]

theorem withdrawCouponBody_ok {p : List Byte} {c : CtxNo} {u : State} {k : Coupon} (h1 : 1 ≤ field p 0 1)
    (hk : (u.ctx c).coupons[field p 0 1 - 1]? = some k) :
    withdrawCouponBody p c u =
      (bumpRevision c ((releaseSerial c k.serial u).setCtx c ((u.ctx c).withoutCoupon (field p 0 1))),
        .reply .ok (enc 1 (field p 0 1) ++ [k.kind.code] ++ enc 6 k.serial ++ enc 2 ((u.ctx c).revision + 1).toNat
          ++ couponCounts ((u.ctx c).coupons.eraseIdx (field p 0 1 - 1)))) := by
  have hfound : (if field p 0 1 = 0 then none else (u.ctx c).coupons[field p 0 1 - 1]?) = some k := by
    rw [if_neg (Nat.ne_of_gt h1), hk]
  have hsame : (releaseSerial c k.serial u).ctx c = u.ctx c := by rw [releaseSerial_writes]; rfl
  have hctx : (bumpRevision c ((releaseSerial c k.serial u).setCtx c
      ((u.ctx c).withoutCoupon (field p 0 1)))).ctx c = ((u.ctx c).withoutCoupon (field p 0 1)).bumped := by
    rw [bumpRevision_ctx, if_pos rfl, ctx_setCtx_same]
  unfold Context.withoutCoupon at hctx ⊢
  simp only [withdrawCouponBody, hfound, hsame, hctx]
  rfl

/-- Settles O24: the coupon leaves the list, and its claim the table with CLAIMS_FULL; an index out of range refuses. -/
theorem withdrawCouponReleasesTheSerial : Obligations.WithdrawCouponReleasesTheSerial := by
  intro s r l c a n ht hb hlen hn
  subst hn
  obtain ⟨u, hu⟩ : ∃ u, u = laneTaken (r.frame 0x08) l s := ⟨_, rfl⟩
  have hctx : u.ctx c = s.ctx c := by rw [hu]; exact laneTaken_ctx ..
  have hclaims : u.claims = s.claims := by rw [hu]; exact laneTaken_claims ..
  have hconds : u.conds = s.conds := by rw [hu]; exact laneTaken_conds ..
  have hrun := basketRequest_takes ht hb hlen fun _ => withdrawCouponBody r.payload
  rw [← hu] at hrun
  refine ⟨fun k h1 hk => ?_, fun hbad => ?_⟩
  · rw [withdrawCouponBody_ok h1 (hctx ▸ hk), hctx] at hrun
    obtain ⟨hes, hds⟩ := releaseSerial_claims c k.serial u
    have hmine : ∀ e, releasedEntry u c k.serial e ↔ releasedEntry s c k.serial e := fun e => by
      unfold releasedEntry; rw [hctx]
    simp only [hmine, hclaims] at hds
    rw [hctx, hclaims] at hes
    have hended : (endExhaustion u).conds = (endExhaustion s).conds := by
      unfold endExhaustion State.setCond; rw [hconds]
    rw [hended, hconds] at hds
    obtain ⟨t, ht', hchanged, hacc, hframe⟩ := changed_claims_on (r := r) (k := 0x08)
      (v := releaseSerial c k.serial u) hb (by rw [← hu]; exact releaseSerial_writes ..)
      (x := (s.ctx c).withoutCoupon (field r.payload 0 1)) hb.place _
    have htconds : t.conds = (releaseSerial c k.serial u).conds := hframe.conds
    have htclaims : t.claims = (releaseSerial c k.serial u).claims := hframe.claims
    refine ⟨t, hrun.trans ht', ?_, ⟨htclaims.trans hes, fun hex => ?_, fun hno => ?_⟩,
      exhaustionEnded_others (htconds.trans hds), hacc, ?_⟩
    · simpa only [couponCounts, Context.withoutCoupon, List.append_assoc] using hchanged
    · rw [cond_congr (htconds.trans (hds.trans (if_pos hex)))]
      exact cond_setCond_same ..
    · rw [cond_congr (htconds.trans (hds.trans (if_neg fun ⟨e, he, hm⟩ => hno e he hm)))]
    · rw [htconds, htclaims]
      exact hframe
  · rw [withdrawCouponBody_bad (hctx ▸ hbad), hu] at hrun
    obtain ⟨t, ht', hrest⟩ := answered_on hb 0x08 r .badField [0, 0]
    exact ⟨t, hrun.trans ht', hrest⟩

end Sys2Proof.Machine


/-! The record image of an offer (R43, R187, R190): an entry that passes the checks is the image of the offer it holds. -/

namespace Sys2Proof.Machine

/-! ### Bytes and numbers (R187) -/

theorem be_append (bs : List Byte) (b : Byte) : be (bs ++ [b]) = be bs * 256 + b.toNat := by
  simp [be, List.foldl_append]

/-- The bytes of a number read from that many bytes are those bytes. -/
theorem enc_be (bs : List Byte) : enc bs.length (be bs) = bs := by
  induction bs using List.reverseRecOn with
  | nil => rfl
  | append_singleton bs b ih =>
    have hb : b.toNat < 256 := b.isLt
    have hdiv : (be bs * 256 + b.toNat) / 256 = be bs := by omega
    have hlow : BitVec.ofNat 8 (be bs * 256 + b.toNat) = b := by
      apply BitVec.eq_of_toNat_eq
      rw [BitVec.toNat_ofNat]
      omega
    rw [List.length_append, List.length_singleton, enc, be_append, hdiv, hlow, ih]

theorem be_lt (bs : List Byte) : be bs < 256 ^ bs.length := by
  induction bs using List.reverseRecOn with
  | nil => decide
  | append_singleton bs b ih =>
    have hb : b.toNat < 256 := b.isLt
    rw [be_append, List.length_append, List.length_singleton, Nat.pow_succ]
    omega

/-- The number of two runs of bytes one after the other. -/
theorem be_append_pow (as bs : List Byte) : be (as ++ bs) = be as * 256 ^ bs.length + be bs := by
  induction bs using List.reverseRecOn with
  | nil => simp [be]
  | append_singleton bs b ih =>
    rw [← List.append_assoc, be_append, ih, be_append, List.length_append, List.length_singleton, Nat.pow_succ]
    ring

/-- The `w` bytes of an entry at offset `off`. -/
def bytesAt (e : List Byte) (off w : Nat) : List Byte := (e.drop off).take w

theorem field_eq (e : List Byte) (off w : Nat) : field e off w = be (bytesAt e off w) := rfl

theorem bytesAt_length {e : List Byte} {off w : Nat} (h : off + w ≤ e.length) : (bytesAt e off w).length = w := by
  rw [bytesAt, List.length_take, List.length_drop]
  omega

/-- A field written again is the bytes it was read from. -/
theorem enc_field {e : List Byte} {off w : Nat} (h : off + w ≤ e.length) :
    enc w (field e off w) = bytesAt e off w := by
  have he := enc_be (bytesAt e off w)
  rwa [bytesAt_length h] at he

/-- Two runs of bytes that meet are one. -/
theorem bytesAt_append (e : List Byte) {a v b w n : Nat} (hb : a + v = b) (hn : v + w = n) :
    bytesAt e a v ++ bytesAt e b w = bytesAt e a n := by
  subst hb hn
  rw [bytesAt, bytesAt, bytesAt, List.take_add, List.drop_drop]

theorem field_append {e : List Byte} {a v b w n : Nat} (hb : a + v = b) (hn : v + w = n) (h : b + w ≤ e.length) :
    field e a n = field e a v * 256 ^ w + field e b w := by
  rw [field_eq, ← bytesAt_append e hb hn, be_append_pow, bytesAt_length h]
  rfl

/-! ### The parts of an offer (R43, R185) -/

theorem offerKindOf_code {n : Nat} {k : OfferKind} (h : offerKindOf n = some k) : [k.code] = enc 1 n := by
  unfold offerKindOf at h
  split_ifs at h with h1 h2 h3 h4 h5
  all_goals
    subst n
    cases h
    rfl

/-- A gate and its tier, as `offerOf` reads them from a gate code and a tier byte. -/
theorem gate_image {g t : Nat} (hg : g ≤ 3) (ht : (if g == 2 then decide (t ≤ 3) else t == 0) = true) {x : Gate}
    (hx : x = if g = 0 then .none else if g = 1 then .coupon else if g = 2 then .tierMin t else .trade) :
    [x.code] = enc 1 g ∧ x.tier = t := by
  obtain rfl | rfl | rfl | rfl : g = 0 ∨ g = 1 ∨ g = 2 ∨ g = 3 := by omega
  all_goals
    subst hx
    simp at ht
  · exact ⟨rfl, ht.symm⟩
  · exact ⟨rfl, ht.symm⟩
  · exact ⟨rfl, rfl⟩
  · exact ⟨rfl, ht.symm⟩

theorem encFlag_field {n : Nat} (h : n ≤ 1) : encFlag (n == 1) = enc 1 n := by
  obtain rfl | rfl : n = 0 ∨ n = 1 := by omega
  · rfl
  · rfl

/-- The eight bytes of a target (R43): an item number with four zero bytes before it, or a department set. -/
theorem target_image {e : List Byte} (hlen : e.length = 32) {k : OfferKind}
    (h : (if k.targetsItem then field e 12 4 == 0 && decide (1 ≤ field e 16 4) else field e 12 8 != 0) = true) :
    (if k.targetsItem then Target.item (field e 16 4) else .depts (BitVec.ofNat 64 (field e 12 8))).image =
      bytesAt e 12 8 := by
  have hbytes : enc 8 (field e 12 8) = bytesAt e 12 8 := enc_field (by omega)
  rw [← hbytes]
  split
  · next hk =>
    rw [if_pos hk, Bool.and_eq_true, beq_iff_eq] at h
    obtain ⟨hz, -⟩ := h
    rw [field_append (a := 12) (v := 4) (b := 16) (w := 4) rfl rfl (by omega), hz, Nat.zero_mul, Nat.zero_add]
    rfl
  · have hlt : field e 12 8 < 2 ^ 64 := by
      have hb := be_lt (bytesAt e 12 8)
      rw [bytesAt_length (by omega)] at hb
      exact hb
    rw [Target.image, BitVec.toNat_ofNat, Nat.mod_eq_of_lt hlt]

/-- Settles O60: each part of the image is the run of bytes it was read from, and the runs in their order are the
entry. -/
theorem offerImageIsTheEntry : Obligations.OfferImageIsTheEntry := by
  intro e hlen hok
  have hall := firstBad_none.1 hok
  simp only [offerChecks, List.forall_mem_cons] at hall
  obtain ⟨-, hkind, htarget, hgate, htier, hstack, -, -, -, -, -, -, hpad, hend, -⟩ := hall
  obtain ⟨k, hk⟩ := Option.isSome_iff_exists.1 hkind
  rw [hk] at htarget
  obtain ⟨hcode, ht⟩ := gate_image (of_decide_eq_true hgate) htier rfl
  have hget : (offerKindOf (field e 2 1)).getD .qtyBreak = k := by rw [hk]; rfl
  have hzero : ([0] : List Byte) = bytesAt e 7 1 := by
    rw [← enc_field (by omega), beq_iff_eq.1 hpad]; rfl
  have hzeros : ([0, 0] : List Byte) = bytesAt e 30 2 := by
    rw [← enc_field (by omega), beq_iff_eq.1 hend]; rfl
  have hhead : ∀ g : Gate, [k.code, g.code] = [k.code] ++ [g.code] := fun _ => rfl
  rw [Offer.image, offerOf]
  dsimp only
  rw [hget, hhead, offerKindOf_code hk, hcode, ht, encFlag_field (of_decide_eq_true hstack), hzeros, hzero,
    target_image hlen htarget]
  iterate 11 rw [enc_field (by omega)]
  rw [bytesAt_append e (a := 2) (v := 1) (b := 3) (w := 1) (n := 2) rfl rfl,
    bytesAt_append e (n := 4) rfl rfl, bytesAt_append e (n := 5) rfl rfl, bytesAt_append e (n := 6) rfl rfl,
    bytesAt_append e (n := 7) rfl rfl, bytesAt_append e (n := 8) rfl rfl, bytesAt_append e (n := 10) rfl rfl,
    bytesAt_append e (n := 12) rfl rfl, bytesAt_append e (n := 20) rfl rfl, bytesAt_append e (n := 24) rfl rfl,
    bytesAt_append e (n := 28) rfl rfl, bytesAt_append e (n := 30) rfl rfl, bytesAt_append e (n := 32) rfl rfl,
    bytesAt, List.drop_zero, ← hlen, List.take_length]

end Sys2Proof.Machine


/-! RECALL (R98, R156, R157): the parked basket attached to its lane, its coupons set again against the CURRENT bank. -/

namespace Sys2Proof.Machine

/-! ### The coupons of a recalled basket (R87, R98) -/

/-- The status of a coupon, by the offer of a bank and its window around a store day (R87). -/
def offerStatus (x : Bank) (day : Nat) (k : Coupon) : Bool :=
  match k.kind with
  | .storeValue _ _ => true
  | .offerKey id =>
    match x.offer id with
    | some o => decide (o.firstDay ≤ day ∧ day ≤ o.lastDay)
    | none => false

theorem statusIn_eq (k : Coupon) (x : Bank) (day : Nat) : k.statusIn x day = offerStatus x day k := by
  unfold Coupon.statusIn offerStatus
  cases k.kind with
  | storeValue value least => rfl
  | offerKey id =>
    dsimp only
    cases x.offer id with
    | none => rfl
    | some o => exact (Bool.decide_and ..).symm

/-- The coupons a recall makes DORMANT. -/
theorem statusChanges_dormant (x : Bank) (day : Nat) (ks : List Coupon) : statusChanges false x day ks =
    (ks.filter fun k => k.active && !offerStatus x day k).length := by
  unfold statusChanges
  congr 1
  refine List.filter_congr fun k _ => ?_
  rw [statusIn_eq]
  cases k.active <;> cases offerStatus x day k <;> rfl

/-- The coupons a recall makes ACTIVE again. -/
theorem statusChanges_active (x : Bank) (day : Nat) (ks : List Coupon) : statusChanges true x day ks =
    (ks.filter fun k => !k.active && offerStatus x day k).length := by
  unfold statusChanges
  congr 1
  refine List.filter_congr fun k _ => ?_
  rw [statusIn_eq]
  cases k.active <;> cases offerStatus x day k <;> rfl

/-- The coupons of a recalled basket (R98). -/
theorem recalled_coupons (x : Bank) (day : Nat) (ks : List Coupon) : ks.map (·.recalled x day) =
    ks.map fun k => { k with active := offerStatus x day k } := by
  refine List.map_congr_left fun k _ => ?_
  rw [Coupon.recalled, statusIn_eq]

/-! ### The writes of a recall (R156, R157) -/

/-- What attaches a recalled basket to a lane with a bank CURRENT (R157). -/
def recallAttachment (s : State) (l : LaneNo) (b : BankNo) : Attachment :=
  { lane := l, tracking := (s.lane l).tracking, bank := b, generation := (s.bank b).generation, day := s.device.day }

/-- A context as its recall leaves it (R15, R98, R157). -/
def recalledContext (s : State) (l : LaneNo) (c : CtxNo) (b : BankNo) : Context :=
  revised (recallAttachment s l b) { s.ctx c with
    place := .attached (recallAttachment s l b)
    coupons := (s.ctx c).coupons.map fun k => { k with active := offerStatus (s.bank b) s.device.day k } }

/-- A lane as the recall of a basket leaves it (R157, R158). -/
def recallLane (s : State) (l : LaneNo) (c : CtxNo) : Lane :=
  { watched s l with state := .opened, ctx := some c, subtotalOwed := false }

/-- The fields of an accepted RECALL (R157). -/
def recallFields (s : State) (l : LaneNo) (c : CtxNo) (b : BankNo) : List Byte :=
  [ctxByte c] ++ enc 2 (s.ctx c).incarnation.toNat ++ enc 2 (recalledContext s l c b).revision.toNat
    ++ enc 2 (s.bank b).generation ++ enc 2 s.device.day ++ [(s.lane l).tracking.code]
    ++ enc 1 (s.ctx c).lines.length ++ enc 1 (s.ctx c).coupons.length
    ++ enc 1 ((s.ctx c).coupons.filter fun k => k.active && !offerStatus (s.bank b) s.device.day k).length
    ++ enc 1 ((s.ctx c).coupons.filter fun k => !k.active && offerStatus (s.bank b) s.device.day k).length
    ++ enc 5 (s.ctx c).accountId

/-- The recall as one write of the context, one of the lane, and those of the banks and of the park list. -/
theorem recallTo_eq (l : LaneNo) (c : CtxNo) (n : Nat) (b : BankNo) (u : State) : recallTo l c n b u =
    ({ (u.setCtx c (recalledContext u l c b)).setLane l (recallLane u l c) with
        banks := (pinBank b u).banks, parks := (unlist n u).parks },
      .reply .ok (recallFields u l c b)) := by
  obtain ⟨x, hx⟩ : ∃ x : Context, x = { u.ctx c with
      place := .attached (recallAttachment u l b)
      coupons := (u.ctx c).coupons.map fun k => { k with active := offerStatus (u.bank b) u.device.day k } } := ⟨_, rfl⟩
  obtain ⟨v, hv⟩ : ∃ v, v = (pinBank b ((unlist n u).setCtx c x)).setLane l
      { u.lane l with state := .opened, ctx := some c } := ⟨_, rfl⟩
  have hvc : v.ctx c = x := by rw [hv]; exact ctx_setCtx_same ..
  have hplace : (v.ctx c).place = .attached (recallAttachment u l b) := by rw [hvc, hx]
  have hctx : (startIdle 0 l (bumpRevision c v)).ctx c = recalledContext u l c b := by
    rw [ctx_congr (startIdle_ctxs ..), bumpRevision_attached hplace, ctx_congr (setLane_ctxs ..), ctx_setCtx_same, hvc,
      hx]
    rfl
  have hstate : startIdle 0 l (bumpRevision c v) =
      { (u.setCtx c (recalledContext u l c b)).setLane l (recallLane u l c) with
        banks := (pinBank b u).banks, parks := (unlist n u).parks } := by
    rw [bumpRevision_attached hplace, startIdle_zero, hvc, hx, hv]
    simp [recallAttachment, recalledContext, recallLane, watched, idleStart, Lane.overtaken, pinBank, State.setLane,
      State.lane, get_set_same, State.setBank, State.setCtx, State.bank, unlist]
  have hfields : ∀ w : State, w.ctx c = recalledContext u l c b →
      [ctxByte c] ++ enc 2 (w.ctx c).incarnation.toNat ++ enc 2 (w.ctx c).revision.toNat
        ++ enc 2 (u.bank b).generation ++ enc 2 u.device.day ++ [(u.lane l).tracking.code]
        ++ enc 1 (u.ctx c).lines.length ++ enc 1 (u.ctx c).coupons.length
        ++ enc 1 (statusChanges false (u.bank b) u.device.day (u.ctx c).coupons)
        ++ enc 1 (statusChanges true (u.bank b) u.device.day (u.ctx c).coupons) ++ enc 5 (u.ctx c).accountId =
      recallFields u l c b := fun w hw => by
    rw [hw, statusChanges_dormant, statusChanges_active]
    rfl
  rw [← hstate, ← hfields _ hctx, hv, hx, ← recalled_coupons]
  rfl

/-- A body that writes its context, its lane, the banks and the park list. -/
theorem bodyWrote_recall (s : State) (k : Byte) (r : Req) (l : LaneNo) (c : CtxNo) (x : Context) (y : Lane)
    (d : Vector Bank 2) (e : ParkStore) : BodyWrote s { s with banks := d, parks := e }
      { ((laneTaken (r.frame k) l s).setCtx c x).setLane l y with banks := d, parks := e } k r l c x y :=
  ⟨by simp, by simp [State.setLane], by simp, by simp, by simp, by simp, by apply State.ext <;> simp, rfl, rfl, rfl⟩

theorem unlist_parks (n : Nat) (s : State) : (unlist n s).parks =
    { s.parks with list := s.parks.list.filter fun e => e.ticket ≠ n } := by
  have hlist : s.parks.list.filter (·.ticket != n) = s.parks.list.filter fun e => e.ticket ≠ n :=
    List.filter_congr fun e _ => by rw [Bool.eq_iff_iff]; simp
  rw [unlist, hlist]

/-! ### The answers of RECALL (R156) -/

section
variable {p : List Byte} {l : LaneNo} {u : State}

theorem recallBody_unloaded (h : u.device.serving = false) : recallBody p l u = (u, .reply .notReady []) := by
  simp [recallBody, h]

variable (h : u.device.serving = true)
include h

theorem recallBody_zero (hz : field p 0 1 = 0) : recallBody p l u = (u, badField 0 0) := by
  simp [recallBody, h, hz]

variable (hpos : 1 ≤ field p 0 1)
include hpos

theorem recallBody_unknown (hn : u.parkedUnder (field p 0 1) = none) :
    recallBody p l u = (u, .reply .unknownTicket []) := by
  simp only [recallBody, h, if_true, if_neg (Nat.ne_of_gt hpos), hn]

theorem recallBody_attaches {c : CtxNo} {b : BankNo} (hc : u.parkedUnder (field p 0 1) = some c)
    (hb : u.currentBank = some b) : recallBody p l u = recallTo l c (field p 0 1) b u := by
  simp only [recallBody, h, if_true, if_neg (Nat.ne_of_gt hpos), hc, hb]

end

/-- RECALL taken on an IDLE lane ends in the answer of its body. -/
theorem recallRequest_takes {s : State} {r : Req} {l : LaneNo} (h : TakesLane s 0x12 r l)
    (hs : (s.lane l).state = .idle) (hl : r.payload.length = 1) :
    exec (.recallBasket r) s = .next (settleClaims (answerLane 0x12 r l
      (recallBody r.payload l (laneTaken (r.frame 0x12) l s)))) := by
  show laneRequest 0x12 gateIdle 1 r (recallBody r.payload) s = _
  rw [laneRequest_takes h, laneBody_body (by simp [hs]) (by rw [laneTaken_state, hs]; rfl) hl]

/-- A refusal of RECALL on an IDLE lane. -/
theorem recallRequest_refused {s : State} {r : Req} {l : LaneNo} (h : TakesLane s 0x12 r l)
    (hs : (s.lane l).state = .idle) (hl : r.payload.length = 1) {o : OutcomeCode} {fields : List Byte}
    (hbody : recallBody r.payload l (laneTaken (r.frame 0x12) l s) =
      (laneTaken (r.frame 0x12) l s, .reply o fields)) :
    ∃ t, exec (.recallBasket r) s = .next t ∧ LaneAnswered s t 0x12 r o (s.laneRevision l) fields ∧
      t.ctxs = s.ctxs ∧ t.lanes = s.lanes ∧ LaneFrame s t := by
  obtain ⟨t, he, ha, hlanes, -, hctxs, hf⟩ := refused_taken s 0x12 r l o fields
  rw [touchIdle_off (by rw [hs]; decide) (by rw [hs]; decide)] at hlanes
  rw [recallRequest_takes h hs hl, hbody]
  exact ⟨t, he, ha, hctxs, hlanes, hf⟩

theorem recall_attaches {s : State} {r : Req} {l : LaneNo} {c : CtxNo} {b : BankNo} (h : TakesLane s 0x12 r l)
    (hs : (s.lane l).state = .idle) (hl : r.payload.length = 1) (hserve : s.device.serving = true)
    (hpos : 1 ≤ field r.payload 0 1) (hc : s.parkedUnder (field r.payload 0 1) = some c)
    (hb : s.currentBank = some b) :
    ∃ t, exec (.recallBasket r) s = .next t ∧
      LaneAnswered s t 0x12 r .ok (recalledContext s l c b).revision (recallFields s l c b) ∧
      t.ctx c = recalledContext s l c b ∧ t.lane l = recallLane s l c ∧ OtherContextsKept s t c ∧
      OtherLanesKept s t l ∧ t.accounts = (touchReservation l s).accounts ∧
      LaneFrame { s with banks := (pinBank b s).banks, parks := (unlist (field r.payload 0 1) s).parks } t := by
  obtain ⟨u, hu⟩ : ∃ u, u = laneTaken (r.frame 0x12) l s := ⟨_, rfl⟩
  have hbanks : u.banks = s.banks := by rw [hu]; simp
  have hparks : u.parks = s.parks := by rw [hu]; simp
  have hdevice : u.device = s.device := by rw [hu]; simp
  have hctx : u.ctx c = s.ctx c := by rw [hu]; exact laneTaken_ctx ..
  have hlane : u.lane l = s.lane l := by
    rw [hu]; exact lane_congr (laneTaken_lanes_off (by rw [hs]; decide) (by rw [hs]; decide)) l
  have hidle : idleStart u = idleStart s := by rw [hu]; simp [idleStart]
  have hbank : u.bank b = s.bank b := bank_congr hbanks b
  have hattach : recallAttachment u l b = recallAttachment s l b := by
    unfold recallAttachment; rw [hlane, hbank, hdevice]
  have hcontext : recalledContext u l c b = recalledContext s l c b := by
    unfold recalledContext; rw [hattach, hctx, hbank, hdevice]
  have hfields : recallFields u l c b = recallFields s l c b := by
    unfold recallFields; rw [hcontext, hctx, hbank, hdevice, hlane]
  have hrecall : recallLane u l c = recallLane s l c := by
    unfold recallLane watched; rw [hlane, hidle]
  have hunlist : (unlist (field r.payload 0 1) u).parks = (unlist (field r.payload 0 1) s).parks := by
    unfold unlist; rw [hparks]
  have hrun := recallRequest_takes h hs hl
  rw [← hu, recallBody_attaches (by rw [hdevice]; exact hserve) hpos
    (by rw [State.parkedUnder, hparks]; exact hc) ((currentBank_congr hbanks).trans hb), recallTo_eq, hcontext, hfields,
    hrecall, pinBank_banks_congr b hbanks, hunlist, hu] at hrun
  have hw := bodyWrote_recall s 0x12 r l c (recalledContext s l c b) (recallLane s l c) (pinBank b s).banks
    (unlist (field r.payload 0 1) s).parks
  obtain ⟨t, ht', ha, hx, hy, hco, hlo, hta, hf⟩ := hw.answered (hw.laneRevision rfl) .ok (recallFields s l c b)
  exact ⟨t, hrun.trans ht', ha, hx, hy, hco, hlo, hta.trans (by simpa using laneTaken_accounts_eq (r.frame 0x12) l s), hf⟩

/-- Settles O32: the recall by its writes, and the three refusals. -/
theorem recallAttachesTheParkedBasket : Obligations.RecallAttachesTheParkedBasket := by
  intro s r l ticket ht hs hlen hticket
  subst hticket
  have hdevice : (laneTaken (r.frame 0x12) l s).device = s.device := laneTaken_device ..
  refine ⟨fun c b p hserve hpos hfind hp hb => ?_, fun hserve => ?_, fun hserve hz => ?_, fun hserve hpos hn => ?_⟩
  · have hc : s.parkedUnder (field r.payload 0 1) = some c := by
      have hfind' : s.parks.list.find? (·.ticket == field r.payload 0 1) =
          some { ticket := field r.payload 0 1, ctx := c } := hfind
      rw [State.parkedUnder, hfind']
      rfl
    obtain ⟨t, hrun, ha, hx, hy, hco, hlo, hta, hf⟩ := recall_attaches ht hs hlen hserve hpos hc hb
    have hbanks : t.banks = (pinBank b s).banks := (congrArg State.banks hf.1 :)
    have hparks : t.parks = (unlist (field r.payload 0 1) s).parks := (congrArg State.parks hf.1 :)
    refine ⟨t, hrun, ⟨hx, ha⟩, hco, ?_, fun d hd => ?_, ?_, hy, hlo, hta, by rw [hbanks, hparks]; exact hf⟩
    · rw [bank_congr hbanks, pinBank, bank_setBank_same]
    · rw [bank_congr hbanks, pinBank, bank_setBank_ne _ _ hd]
    · rw [hparks, unlist_parks]
  · exact recallRequest_refused ht hs hlen (recallBody_unloaded (by rw [hdevice]; exact hserve))
  · exact recallRequest_refused ht hs hlen (recallBody_zero (by rw [hdevice]; exact hserve) hz)
  · refine recallRequest_refused ht hs hlen (recallBody_unknown (by rw [hdevice]; exact hserve) hpos ?_)
    rw [State.parkedUnder, laneTaken_parks, List.find?_eq_none.2 fun e he => by simpa using hn e he]
    rfl

end Sys2Proof.Machine


/-! FINALIZE (R99, R130, R147 to R149): the claims spent, the points converted, and the SETTLE_HEAD of the stream. -/

namespace Sys2Proof.Machine

/-! ### The claims of a settled basket (R91, R99) -/

/-- An entry a context owns becomes SPENT on the current store day (R99). -/
def spendEntry (s : State) (c : CtxNo) (e : ClaimEntry) : ClaimEntry :=
  if e.state = .claimed c (s.ctx c).incarnation then { e with state := .spent s.device.day } else e

theorem spendClaimsOf_eq (c : CtxNo) (s : State) : spendClaimsOf c s =
    { s with
      claims := s.claims.map (spendEntry s c)
      conds := if ∃ e ∈ s.claims, e.state = .claimed c (s.ctx c).incarnation then (endExhaustion s).conds
        else s.conds } := by
  have hspend : (fun e : ClaimEntry => if e.ownedBy s c then { e with state := .spent s.device.day } else e) =
      spendEntry s c := funext fun e => by
    unfold spendEntry
    by_cases h : e.state = .claimed c (s.ctx c).incarnation
    · rw [if_pos h, if_pos ((ClaimEntry.ownedBy_iff ..).2 h)]
    · rw [if_neg h, if_neg fun ho => h ((ClaimEntry.ownedBy_iff ..).1 ho)]
  have hany : (s.claims.any (ClaimEntry.ownedBy s c) = true) ↔
      ∃ e ∈ s.claims, e.state = .claimed c (s.ctx c).incarnation := by
    rw [List.any_eq_true]
    simp only [ClaimEntry.ownedBy_iff]
  unfold spendClaimsOf
  dsimp only
  rw [hspend]
  by_cases h : ∃ e ∈ s.claims, e.state = .claimed c (s.ctx c).incarnation
  · rw [if_pos (hany.2 h), if_pos h]; rfl
  · rw [if_neg fun hn => h (hany.1 hn), if_neg h]

/-! ### The points converted (R130) -/

/-- A context whose account has been settled (R130). -/
def settledContext (s : State) (c : CtxNo) : Context :=
  { s.ctx c with
    account := none
    settledAccount := if (s.ctx c).account = none then (s.ctx c).settledAccount else referredId s c }

/-- The conversion as a write of the context and one of the account table. -/
theorem convertPoints_eq (c : CtxNo) (used : Nat) (s : State) : convertPoints c used s =
    { s.setCtx c (settledContext s c) with accounts := (convertPoints c used s).accounts } := by
  unfold convertPoints settledContext referredId
  cases h : (s.ctx c).account with
  | none =>
    have hsame : ({ s.ctx c with account := none, settledAccount := (s.ctx c).settledAccount } : Context) = s.ctx c := by
      rw [← h]
    dsimp only
    rw [if_pos rfl, hsame, setCtx_self]
  | some ref => rfl

/-- The balance of an entry less the points converted. -/
def AccountEntry.converted (id used : Nat) (e : AccountEntry) : AccountEntry :=
  if e.id == id then { e with balance := e.balance - used } else e

theorem converted_id (id used : Nat) (e : AccountEntry) : (e.converted id used).id = e.id := by
  unfold AccountEntry.converted
  split <;> rfl

theorem withoutHold_converted (c : CtxNo) (id used : Nat) (e : AccountEntry) :
    withoutHold c (e.converted id used) = (withoutHold c e).converted id used := by
  unfold AccountEntry.converted
  by_cases h : e.id = id <;> simp [withoutHold, h]

section
variable {s u : State} {c : CtxNo} {ref : AccountRef}

/-- The table with the balance converted and the reservation gone, before the reference is dropped. -/
theorem convertedHolds (hu : u.accounts = accountsTouched s c) (used : Nat) :
    (removeReservation c (changeAccount ref.id (fun e => { e with balance := e.balance - used }) u)).accounts =
      s.accounts.map fun e => (withoutHold c e).converted ref.id used := by
  rw [removeReservation_accounts]
  show ((u.accounts.map (AccountEntry.converted ref.id used)).map (withoutHold c)) = _
  rw [List.map_map, show withoutHold c ∘ AccountEntry.converted ref.id used =
    AccountEntry.converted ref.id used ∘ withoutHold c from funext (withoutHold_converted c ref.id used), ← List.map_map,
    hu, withoutHold_touched, List.map_map]
  rfl

/-- The entries of the account table once the points of a basket are converted (R130). -/
theorem convertPoints_account (hu : u.accounts = accountsTouched s c) (hctx : u.ctx c = s.ctx c)
    (hacc : AccountsOrdered s) (href : (s.ctx c).account = some ref) (used j : Nat) :
    (convertPoints c used u).account j = accountLeft s c (referredId s c) used j := by
  obtain ⟨w, hw⟩ : ∃ w, w = removeReservation c
      (changeAccount ref.id (fun e => { e with balance := e.balance - used }) u) := ⟨_, rfl⟩
  have hwa : w.accounts = s.accounts.map fun e => (withoutHold c e).converted ref.id used := by
    rw [hw]; exact convertedHolds hu used
  have hids : w.accounts.map (·.id) = s.accounts.map (·.id) := by
    rw [hwa, List.map_map]
    exact List.map_congr_left fun e _ => converted_id ..
  have hfind : w.account j = (s.account j).map fun e => (withoutHold c e).converted ref.id used := by
    rw [State.account, hwa]
    exact find?_map_id (g := fun e => (withoutHold c e).converted ref.id used) (fun e => converted_id ..) s.accounts j
  have hconv : (convertPoints c used u).accounts = (dropReference ref.id w).accounts := by
    unfold convertPoints
    rw [hctx, href, hw]
    rfl
  obtain ⟨hnd, -⟩ := hacc
  rw [account_congr hconv, dropReference_account (by rw [hids]; exact hnd), hfind, accountLeft, referredId, href]
  cases hj : s.account j with
  | none => rfl
  | some e =>
    have hid := account_id hj
    by_cases he : ref.id = j
    · simp [AccountEntry.converted, withoutHold, he, hid]
    · have hne : ¬ j = ref.id := fun h => he h.symm
      simp [AccountEntry.converted, withoutHold, he, hid, hne]

theorem convertPoints_noAccount (h : (u.ctx c).account = none) (used : Nat) : convertPoints c used u = u := by
  unfold convertPoints
  rw [h]

/-- The balance a timer restart leaves to an entry (R125). -/
theorem touched_balance (hu : u.accounts = accountsTouched s c) (j : Nat) :
    (u.account j).map (·.balance) = (s.account j).map (·.balance) := by
  have hfind : u.account j = (s.account j).map fun e => { e with reservations := e.reservations.map fun d =>
      if d.ctx == c then { d with expires := s.after (s.config.reservationLifetime * 1000) } else d } := by
    rw [State.account, hu]
    exact find?_map_id (g := fun e => { e with reservations := e.reservations.map fun d =>
      if d.ctx == c then { d with expires := s.after (s.config.reservationLifetime * 1000) } else d }) (fun _ => rfl)
      s.accounts j
  rw [hfind, Option.map_map]
  rfl

/-- The balance of the account a basket names once its points are converted; 0xFFFFFFFF without an account (R149). -/
def convertedBalance (s : State) (c : CtxNo) (used : Nat) : Nat :=
  match (referredId s c).bind s.account with
  | some e => e.balance - used
  | none => 4294967295

/-- The balance SETTLE_HEAD carries (R149). -/
theorem balanceAfter_eq (hu : u.accounts = accountsTouched s c) (hctx : u.ctx c = s.ctx c) {used : Nat}
    (hheld : ∀ ref, (s.ctx c).account = some ref → s.account ref.id ≠ none) :
    balanceAfter u c used = convertedBalance s c used := by
  unfold balanceAfter convertedBalance referredId
  rw [hctx]
  cases href : (s.ctx c).account with
  | none => rfl
  | some ref =>
    have hbal := touched_balance hu ref.id
    dsimp only [Option.map_some, Option.bind_some]
    cases hs : s.account ref.id with
    | none => exact absurd hs (hheld ref href)
    | some e =>
      rw [hs] at hbal
      cases hue : u.account ref.id with
      | none => rw [hue] at hbal; cases hbal
      | some d =>
        rw [hue] at hbal
        have heq : d.balance = e.balance := by simpa using hbal
        dsimp only
        rw [heq]

end

/-! ### The writes of FINALIZE (R147) -/

/-- A lane whose basket settles (R147, R158). -/
def settlingLane (s : State) (l : LaneNo) : Lane :=
  { s.lane l with state := .settling, subtotalOwed := false, idleStage := 0, idleTimer := none }

/-- The state in which the SETTLE_HEAD of a stream is placed: one write of the context, one of the lane, and those of the
tables. -/
def settleWrites (l : LaneNo) (c : CtxNo) (used : Nat) (st : Stream) (s : State) : State :=
  { (s.setCtx c (settledContext s c)).setLane l (settlingLane s l) with
    accounts := (convertPoints c used s).accounts, claims := (spendClaimsOf c s).claims
    conds := (spendClaimsOf c s).conds, streams := (s.setStream l (some st)).streams }

/-- The stream FINALIZE begins, with one frame placed (R148, R150). -/
def firstStream (c : CtxNo) (tag : Byte) (x : Context) (head : List Byte) : Stream :=
  { ctx := c, tag := tag, lineFrames := lineFramesOf x.lines, placed := 1, crc := crc32Fold crc32Init head }

theorem settle_eq (tag : Byte) (l : LaneNo) (c : CtxNo) (q : Quote) (u : State) {head : List Byte}
    (hh : head = headPayload c (u.ctx c) (u.ctx c).day (u.ctx c).accountId (balanceAfter u c q.pointsUsed) q) :
    settle tag l c q u = placeReserved (settleFrameOf l (firstStream c tag (u.ctx c) head) 0x63 head)
      (settleWrites l c q.pointsUsed (firstStream c tag (u.ctx c) head) u) := by
  subst hh
  have hconv := convertPoints_eq c q.pointsUsed (spendClaimsOf c u)
  have hacc : (convertPoints c q.pointsUsed (spendClaimsOf c u)).accounts = (convertPoints c q.pointsUsed u).accounts := by
    rw [spendClaimsOf_eq]
    unfold convertPoints
    show (match (u.ctx c).account with | none => _ | some a => _ : State).accounts = _
    cases (u.ctx c).account <;> rfl
  have hctx : settledContext (spendClaimsOf c u) c = settledContext u c := by rw [spendClaimsOf_eq]; rfl
  rw [hacc, hctx] at hconv
  unfold settle
  dsimp only
  rw [hconv, spendClaimsOf_eq]
  unfold settleWrites
  rw [spendClaimsOf_eq]
  simp [startStream, firstStream, settlingLane, stopIdle, State.setLane, State.lane, get_set_same]
  rfl

end Sys2Proof.Machine


/-! FINALIZE as a request (R147 to R150): the step that settles, and the refusal of a basket without a total. -/

namespace Sys2Proof.Machine

/-- A body that places a frame of its own in the slot of its take (R5, R150). -/
theorem BodyWrote.placed {s s' v : State} {k : Byte} {r : Req} {l : LaneNo} {c : CtxNo} {x : Context} {y : Lane}
    (h : BodyWrote s s' v k r l c x y) (f : Frame) {t : State} (ht : t = settleClaims (placeReserved f v)) :
    FrameTaken .pool (r.frame k) s t ∧ t.mainQ.frames = s.mainQ.frames ++ [f] ∧
      t.mainQ.reserved = s.mainQ.reserved ∧ t.ctx c = x ∧ t.lane l = y ∧ OtherContextsKept s t c ∧
      OtherLanesKept s t l ∧ t.accounts = v.accounts ∧ LaneFrame s' t := by
  subst ht
  refine ⟨(laneTaken_taken (r.frame k) l s).congr (by simp [State.inbound, h.pool]) (by simp [h.link]),
    by simp [placeReserved, h.mainQ], by simp [placeReserved, h.mainQ], ?_, ?_, fun d hd => ?_, fun m hm => ?_, by simp,
    laneFrame_body _ h.rest h.link h.mainQ h.draws h.link' h.mainQ' h.draws'⟩
  · rw [ctx_congr (s := v) (by simp), h.ctx_same]
  · rw [lane_congr (s := v) (by simp), h.lane_same]
  · rw [ctx_congr (s := v) (by simp), h.ctx, if_neg hd]
  · rw [lane_congr (s := v) (by simp), h.lane_ne hm]

/-- The writes of FINALIZE on the state its take leaves. -/
theorem bodyWrote_settle {s u : State} {k : Byte} {r : Req} {l : LaneNo} (hu : u = laneTaken (r.frame k) l s)
    (hst : (s.lane l).state = .opened ∨ (s.lane l).state = .totalled) (c : CtxNo) (used : Nat) (st : Stream) :
    BodyWrote s
      { s with
        claims := (spendClaimsOf c s).claims, conds := (spendClaimsOf c s).conds
        streams := (s.setStream l (some st)).streams }
      (settleWrites l c used st u) k r l c (settledContext s c) (settlingLane s l) := by
  have hctx : u.ctx c = s.ctx c := by rw [hu]; exact laneTaken_ctx ..
  have hlane : u.lane l = watched s l := by rw [hu, laneTaken_lane_on hst, if_pos rfl]
  have hcontext : settledContext u c = settledContext s c := by unfold settledContext referredId; rw [hctx]
  have hsettling : settlingLane u l = settlingLane s l := by unfold settlingLane; rw [hlane]; rfl
  unfold settleWrites
  rw [hcontext, hsettling, hu]
  exact ⟨by simp, by simp [State.setLane], by simp, by simp, by simp, by simp,
    by apply State.ext <;> simp [spendClaimsOf_eq, spendEntry, State.setStream, endExhaustion, State.setCond], rfl, rfl, rfl⟩

/-- FINALIZE taken on a TOTALLED lane ends in the settlement of its basket (R147). -/
theorem finalizeRequest_settles {s u : State} {r : Req} {l : LaneNo} {c : CtxNo} {a : Attachment} {q : Quote}
    (hu : u = laneTaken (r.frame 0x0F) l s) (h : TakesLane s 0x0F r l) (hb : OnBasket s l c a) (hl : r.payload = [])
    (hq : (s.ctx c).quote = some q) (hs : (s.lane l).state = .totalled) :
    exec (.finalize r) s = .next (settleClaims (settle r.tag l c q u)) := by
  obtain ⟨hst, hc, -⟩ := hb
  have hlane : u.lane l = watched s l := by rw [hu, laneTaken_lane_on hst, if_pos rfl]
  have hstate : (u.lane l).state = .totalled := by rw [hlane]; exact hs
  have hctx : (u.lane l).ctx = some c := by rw [hlane]; exact hc
  have hquote : (u.ctx c).quote = some q := by rw [hu, laneTaken_ctx]; exact hq
  show laneRequest 0x0F gateFinalize 0 r (fun l => onCtx l (finalizeBody r.tag l)) s = _
  rw [laneRequest_takes h, ← hu, laneBody_body (by rw [hstate]; decide) (by rw [hstate]; rfl) (by rw [hl]; rfl)]
  have hbody : onCtx l (finalizeBody r.tag l) u = (settle r.tag l c q u, .later) := by
    simp only [onCtx, hctx, finalizeBody, hquote]
  rw [hbody, answerLane_later]

/-- FINALIZE without a total is answered STALE_QUOTE (R3). -/
theorem finalizeRequest_stale {s : State} {r : Req} {l : LaneNo} {c : CtxNo} {a : Attachment}
    (h : TakesLane s 0x0F r l) (hb : OnBasket s l c a) (hs : (s.lane l).state = .opened) :
    exec (.finalize r) s = .next (settleClaims (answerLane 0x0F r l
      (laneTaken (r.frame 0x0F) l s, .reply .staleQuote []))) := by
  have hstate : ((laneTaken (r.frame 0x0F) l s).lane l).state = .opened := by
    rw [laneTaken_lane_on hb.1, if_pos rfl]; exact hs
  show laneRequest 0x0F gateFinalize 0 r (fun l => onCtx l (finalizeBody r.tag l)) s = _
  rw [laneRequest_takes h, laneBody_gate (by rw [hstate]; decide) (by rw [hstate]; rfl)]

theorem spendClaims_conds (c : CtxNo) (s : State) : (spendClaimsOf c s).conds =
    if ∃ e ∈ s.claims, e.state = .claimed c (s.ctx c).incarnation then (endExhaustion s).conds else s.conds := by
  rw [spendClaimsOf_eq]

/-- The settlement of a basket: its frame, its stream, its records and its tables (R147 to R150). -/
theorem finalize_settles {s : State} {r : Req} {l : LaneNo} {c : CtxNo} {a : Attachment} {q : Quote} {head : List Byte}
    (h : TakesLane s 0x0F r l) (hb : OnBasket s l c a) (hl : r.payload = []) (hq : (s.ctx c).quote = some q)
    (hs : (s.lane l).state = .totalled) (hheld : ∀ ref, (s.ctx c).account = some ref → s.account ref.id ≠ none)
    (hhead : head = headPayload c (s.ctx c) a.day (s.ctx c).accountId
      (convertedBalance s c q.pointsUsed) q) :
    ∃ u t, u = laneTaken (r.frame 0x0F) l s ∧ exec (.finalize r) s = .next t ∧
      FrameTaken .pool (r.frame 0x0F) s t ∧
      t.mainQ.frames = s.mainQ.frames ++ [{ kind := 0x63, lane := laneByte l, tag := r.tag, payload := head }] ∧
      t.mainQ.reserved = s.mainQ.reserved ∧ t.ctx c = settledContext s c ∧ t.lane l = settlingLane s l ∧
      OtherContextsKept s t c ∧ OtherLanesKept s t l ∧ t.accounts = (convertPoints c q.pointsUsed u).accounts ∧
      LaneFrame { s with
        claims := (spendClaimsOf c s).claims, conds := (spendClaimsOf c s).conds
        streams := (s.setStream l (some (firstStream c r.tag (s.ctx c) head))).streams } t := by
  obtain ⟨u, hu⟩ : ∃ u, u = laneTaken (r.frame 0x0F) l s := ⟨_, rfl⟩
  have hctx : u.ctx c = s.ctx c := by rw [hu]; exact laneTaken_ctx ..
  have hacc : u.accounts = accountsTouched s c := by rw [hu]; exact laneTaken_accounts hb.2.1
  have hday : (s.ctx c).day = a.day := by unfold Context.day; rw [Context.attachment_attached hb.place]
  have hrun := finalizeRequest_settles hu h hb hl hq hs
  rw [settle_eq r.tag l c q u (head := head) (by rw [hctx, hday, balanceAfter_eq hacc hctx hheld, hhead]), hctx] at hrun
  exact ⟨u, _, hu, hrun, (bodyWrote_settle hu hb.1 c q.pointsUsed _).placed _ rfl⟩

/-- Settles O30: the settlement by its writes, and the refusal of an untotalled basket by the gate. -/
theorem finalizeSettlesTheQuote : Obligations.FinalizeSettlesTheQuote := by
  intro s r l c a ht hb hl
  refine ⟨fun q hord hq hs hheld => ?_, fun hs => ?_⟩
  · obtain ⟨u, t, hu, hrun, htaken, hfs, hres, hx, hy, hco, hlo, hta, hf⟩ :=
      finalize_settles ht hb hl hq hs hheld rfl
    have hctx : u.ctx c = s.ctx c := by rw [hu]; exact laneTaken_ctx ..
    have hacc : u.accounts = accountsTouched s c := by rw [hu]; exact laneTaken_accounts hb.2.1
    have hclaims : t.claims = (spendClaimsOf c s).claims := (congrArg State.claims hf.1 :)
    have hconds : t.conds = (spendClaimsOf c s).conds := (congrArg State.conds hf.1 :)
    have hstreams := (congrArg State.streams hf.1 :)
    have hended := hconds.trans (spendClaims_conds c s)
    refine ⟨t, hrun, ⟨hfs, ?_, hx⟩, hres, htaken, fun m hm => ?_, hco, hy, hlo, ?_, fun hex => ?_, fun hno => ?_,
      exhaustionEnded_others hended, fun hsome j => ?_, fun hnone => ?_, ?_⟩
    · exact (stream_congr hstreams l).trans (stream_setStream_same ..)
    · exact (stream_congr hstreams m).trans (stream_setStream_ne _ _ hm)
    · rw [hclaims, spendClaimsOf_eq]; rfl
    · rw [cond_congr (hended.trans (if_pos hex))]
      exact cond_setCond_same ..
    · rw [cond_congr (hended.trans (if_neg fun ⟨e, he, hm⟩ => hno e he hm))]
    · obtain ⟨ref, href⟩ := Option.ne_none_iff_exists'.1 hsome
      rw [account_congr hta]
      exact convertPoints_account hacc hctx hord href q.pointsUsed j
    · rw [hta, convertPoints_noAccount (by rw [hctx]; exact hnone), hacc]
    · rw [hclaims, hconds, hstreams]; exact hf
  · obtain ⟨t, ht', hrest⟩ := answered_on hb 0x0F r .staleQuote []
    exact ⟨t, (finalizeRequest_stale ht hb hs).trans ht', hrest⟩

end Sys2Proof.Machine


/-! The timers of the baskets (R126, R155, R159, R160): a reservation that expires, a parked basket that expires, the
warning of an idle lane and its automatic park. -/

namespace Sys2Proof.Machine

/-! ### The commands of the timers -/

theorem reservationExpiry_arm (c : CtxNo) (s : State) : exec (.reservationExpiry c) s =
    whenLive (fun s => if s.reservationDue c then settleClaims (expireReservation c s) else s) s := rfl

theorem parkExpiry_arm (c : CtxNo) (s : State) : exec (.parkExpiry c) s = whenLive (fun s =>
    match s.expiredParking c with
    | some p => expireParked c p.ticket s
    | none => s) s := rfl

theorem idleWarning_arm (l : LaneNo) (s : State) :
    exec (.idleWarning l) s = whenLive (fun s => if s.idleDue l 0 then warnIdle l s else s) s := rfl

theorem autoPark_arm (l : LaneNo) (s : State) : exec (.autoPark l) s = whenLive (fun s =>
    if s.idleDue l 1 then
      match (s.lane l).ctx with
      | some c => settleClaims (autoPark l c s)
      | none => s
    else s) s := rfl

/-! ### What the timers wait for (R183) -/

theorem reservationDue_iff (s : State) (c : CtxNo) :
    s.reservationDue c = true ↔ ∃ d, s.reservation c = some d ∧ d.expires ≤ s.now := by
  unfold State.reservationDue
  cases s.reservation c <;> simp [State.timerDue]

theorem expiredParking_iff (s : State) (c : CtxNo) (p : Parking) :
    s.expiredParking c = some p ↔ (s.ctx c).place = .parked p ∧ p.expires ≤ s.now := by
  unfold State.expiredParking
  cases h : (s.ctx c).place with
  | parked q =>
    by_cases hq : q.expires ≤ s.now
    · simp only [State.timerDue, hq, decide_true, if_true, Option.some.injEq, Place.parked.injEq]
      exact ⟨fun e => ⟨e, e ▸ hq⟩, fun e => e.1⟩
    · simp only [State.timerDue, hq, decide_false, Place.parked.injEq]
      exact ⟨fun e => (nomatch e), fun ⟨e, he⟩ => absurd (e ▸ he) hq⟩
  | _ => simp

theorem idleDue_iff (s : State) (l : LaneNo) (n : Nat) :
    s.idleDue l n = true ↔ (s.lane l).idleStage = n ∧ Due s (s.lane l).idleTimer := by
  rw [State.idleDue, Bool.and_eq_true, beq_iff_eq, timerDue_iff]

/-! ### Raising a condition -/

/-- The queue of notices after a class is raised, by that class and the mask. -/
theorem noticesAfter_of {s u : State} {c : CondClass} (hm : u.conds.mask = s.conds.mask) (hc : u.cond c = s.cond c)
    (queued : List CondClass) : noticesAfter u c queued = noticesAfter s c queued := by
  unfold noticesAfter State.masked
  rw [hm, hc]

theorem raise_cond_same (c : CondClass) (f : Detail → Detail) (s : State) :
    (raise c f s).cond c = { pending := true, detail := f (s.cond c).detail } := by
  rw [raise_cond, if_pos rfl]

theorem raise_cond_ne (c : CondClass) (f : Detail → Detail) (s : State) {d : CondClass} (h : d ≠ c) :
    (raise c f s).cond d = s.cond d := by
  rw [raise_cond, if_neg h]

/-- A class raised on a state with the conditions of another leaves the other classes of that one. -/
theorem raise_others {s u : State} (h : u.conds = s.conds) (c : CondClass) (f : Detail → Detail) :
    OtherConditionsKept s (raise c f u) c :=
  ⟨(raise_mask ..).trans (by rw [h]), fun _ hd => (raise_cond_ne c f u hd).trans (cond_congr h _)⟩

/-! ### The expiry of a reservation (R126) -/

/-- The lanes a condition names for one attached basket. -/
theorem laneSetOf_attached {s : State} {c : CtxNo} {a : Attachment} (h : (s.ctx c).place = .attached a) :
    laneSetOf (lanesOf s [c]) = laneBit a.lane := by
  have hl : lanesOf s [c] = [a.lane] := by simp [lanesOf, Context.attachment_attached h]
  rw [hl]
  exact BitVec.zero_or

/-- The expiry of the reservation of an attached basket as writes and one condition raised. -/
theorem expireReservation_eq {s : State} {c : CtxNo} {a : Attachment} (h : (s.ctx c).place = .attached a) :
    expireReservation c s = raise .holdExpired (·.addLanes (laneBit a.lane))
      (((removeReservation c s).setCtx c (revised a (s.ctx c))).setLane a.lane (s.lane a.lane).overtaken) := by
  have hbump : bumpRevision c (removeReservation c s) =
      ((removeReservation c s).setCtx c (revised a (s.ctx c))).setLane a.lane (s.lane a.lane).overtaken :=
    bumpRevision_attached (s := removeReservation c s) h
  have hplace : ((bumpRevision c (removeReservation c s)).ctx c).place = .attached a := by
    rw [hbump, ctx_congr (setLane_ctxs ..), ctx_setCtx_same, ← h]; rfl
  unfold expireReservation
  dsimp only
  rw [laneSetOf_attached hplace, hbump]

theorem reservationExpiry_due {s : State} {c : CtxNo} {d : Reservation} (hs : Live s) (hd : s.reservation c = some d)
    (ht : d.expires ≤ s.now) : exec (.reservationExpiry c) s = .next (settleClaims (expireReservation c s)) := by
  rw [reservationExpiry_arm, whenLive_live hs, if_pos ((reservationDue_iff s c).2 ⟨d, hd, ht⟩)]

theorem reservationExpiry_waits {s : State} {c : CtxNo} (h : ∀ d, s.reservation c = some d → s.now < d.expires) :
    exec (.reservationExpiry c) s = .next s :=
  (reservationExpiry_arm c s).trans (whenLive_idle fun _ => if_neg fun hdue => by
    obtain ⟨d, hd, ht⟩ := (reservationDue_iff s c).1 hdue
    exact absurd (h d hd) (Nat.not_lt.2 ht))

/-! ### The expiry of a parked basket (R155) -/

theorem parkExpiry_due {s : State} {c : CtxNo} {p : Parking} (hs : Live s) (hp : (s.ctx c).place = .parked p)
    (ht : p.expires ≤ s.now) : exec (.parkExpiry c) s = .next (expireParked c p.ticket s) := by
  rw [parkExpiry_arm, whenLive_live hs, (expiredParking_iff s c p).2 ⟨hp, ht⟩]

theorem parkExpiry_waits {s : State} {c : CtxNo} (h : ∀ p, (s.ctx c).place = .parked p → s.now < p.expires) :
    exec (.parkExpiry c) s = .next s := by
  refine (parkExpiry_arm c s).trans (whenLive_idle fun _ => ?_)
  cases hp : s.expiredParking c with
  | none => rfl
  | some p =>
    obtain ⟨hplace, ht⟩ := (expiredParking_iff s c p).1 hp
    exact absurd (h p hplace) (Nat.not_lt.2 ht)

/-! ### The idle monitor (R159, R160) -/

theorem idleWarning_due {s : State} {l : LaneNo} (hs : Live s) (hn : (s.lane l).idleStage = 0)
    (hd : Due s (s.lane l).idleTimer) : exec (.idleWarning l) s = .next (warnIdle l s) := by
  rw [idleWarning_arm, whenLive_live hs, if_pos ((idleDue_iff s l 0).2 ⟨hn, hd⟩)]

theorem idleWarning_waits {s : State} {l : LaneNo} (h : ¬ Due s (s.lane l).idleTimer ∨ (s.lane l).idleStage ≠ 0) :
    exec (.idleWarning l) s = .next s :=
  (idleWarning_arm l s).trans (whenLive_idle fun _ => if_neg fun hdue => by
    obtain ⟨hn, hd⟩ := (idleDue_iff s l 0).1 hdue
    exact h.elim (· hd) (· hn))

theorem autoPark_due {s : State} {l : LaneNo} {c : CtxNo} (hs : Live s) (hn : (s.lane l).idleStage = 1)
    (hd : Due s (s.lane l).idleTimer) (hc : (s.lane l).ctx = some c) :
    exec (.autoPark l) s = .next (settleClaims (autoPark l c s)) := by
  rw [autoPark_arm, whenLive_live hs, if_pos ((idleDue_iff s l 1).2 ⟨hn, hd⟩), hc]

theorem autoPark_waits {s : State} {l : LaneNo} (h : ¬ Due s (s.lane l).idleTimer ∨ (s.lane l).idleStage ≠ 1) :
    exec (.autoPark l) s = .next s :=
  (autoPark_arm l s).trans (whenLive_idle fun _ => if_neg fun hdue => by
    obtain ⟨hn, hd⟩ := (idleDue_iff s l 1).1 hdue
    exact h.elim (· hd) (· hn))

end Sys2Proof.Machine


/-! The timers of the baskets settled: what each expiry changes (R126, R155, R159, R160). -/

namespace Sys2Proof.Machine

/-! ### The expiry of a reservation (R126) -/

/-- The records an expired reservation leaves (R126). -/
theorem expireReservation_records {s t : State} {c : CtxNo} {a : Attachment} (h : (s.ctx c).place = .attached a)
    (ht : t = settleClaims (expireReservation c s)) :
    t.ctx c = revised a (s.ctx c) ∧ OtherContextsKept s t c ∧
      t.lane a.lane = (s.lane a.lane).overtaken ∧ OtherLanesKept s t a.lane ∧
      ∀ j, t.account j = accountLeft s c none 0 j := by
  rw [expireReservation_eq h] at ht
  have hctxs : t.ctxs = (s.setCtx c (revised a (s.ctx c))).ctxs := by rw [ht]; simp; rfl
  have hlanes : t.lanes = (s.setLane a.lane (s.lane a.lane).overtaken).lanes := by rw [ht]; simp; rfl
  have hacc : t.accounts = s.accounts.map (withoutHold c) := by rw [ht]; simp [removeReservation_accounts]
  refine ⟨?_, fun d hd => ?_, ?_, fun m hm => ?_, account_withoutHold hacc⟩
  · rw [ctx_congr hctxs, ctx_setCtx_same]
  · rw [ctx_congr hctxs, ctx_setCtx_ne _ _ hd]
  · rw [lane_congr hlanes, lane_setLane_same]
  · rw [lane_congr hlanes, lane_setLane_ne _ _ hm]

/-- The condition an expired reservation raises, and what the expiry leaves unchanged (R126). -/
theorem expireReservation_raises {s t : State} {c : CtxNo} {a : Attachment} (h : (s.ctx c).place = .attached a)
    (ht : t = settleClaims (expireReservation c s)) :
    t.cond .holdExpired = { pending := true
                            detail := { (s.cond .holdExpired).detail with
                              lanes := (s.cond .holdExpired).detail.lanes ||| laneBit a.lane } } ∧
      OtherConditionsKept s t .holdExpired ∧ t.notices = noticesAfter s .holdExpired s.notices ∧
      ClaimsSettled { s with ctxs := t.ctxs, lanes := t.lanes, accounts := t.accounts, conds := t.conds
                             notices := t.notices } t := by
  rw [expireReservation_eq h] at ht
  obtain ⟨u, hu⟩ : ∃ u, u = ((removeReservation c s).setCtx c (revised a (s.ctx c))).setLane a.lane
    (s.lane a.lane).overtaken := ⟨_, rfl⟩
  have huconds : u.conds = s.conds := by rw [hu]; rfl
  have hunotices : u.notices = s.notices := by rw [hu]; rfl
  rw [← hu] at ht
  obtain ⟨hmask, hothers⟩ := raise_others huconds .holdExpired (·.addLanes (laneBit a.lane))
  have hconds : t.conds = (raise .holdExpired (·.addLanes (laneBit a.lane)) u).conds := by rw [ht]; simp
  refine ⟨?_, ⟨by rw [hconds, hmask], fun d hd => (cond_congr hconds d).trans (hothers d hd)⟩, ?_, ?_⟩
  · rw [cond_congr hconds, raise_cond_same, cond_congr huconds]; rfl
  · rw [ht, settleClaims_notices, raise_notices, hunotices, noticesAfter_congr huconds]
  · rw [ht]
    refine .of_eq ?_
    apply State.ext <;> simp
    all_goals rw [hu]; rfl

/-! ### The expiry of a parked basket (R155) -/

/-- The state of an expired parked basket before its condition is raised. -/
def unparked (c : CtxNo) (ticket : Nat) (s : State) : State :=
  freeCtx c (unlist ticket (dropReferenceOf c (removeClaimsOf c s)))

theorem expireParked_eq (c : CtxNo) (n : Nat) (s : State) :
    expireParked c n s = raise .parkExpired (fun d => { d with ticket := n }) (unparked c n s) := rfl

theorem unparked_ctxs (c : CtxNo) (n : Nat) (s : State) :
    (unparked c n s).ctxs = (s.setCtx c (s.ctx c).freed).ctxs := by
  have hctx : (unlist n (dropReferenceOf c (removeClaimsOf c s))).ctx c = s.ctx c := ctx_congr (by simp [unlist]) c
  rw [unparked, freeCtx, hctx]
  simp [State.setCtx, unlist]

theorem unparked_conds (c : CtxNo) (n : Nat) (s : State) : (unparked c n s).conds = (removeClaimsOf c s).conds := by
  simp [unparked, unlist]

/-- The records an expired parked basket leaves (R155). -/
theorem expireParked_records {s t : State} {c : CtxNo} {n : Nat} (ht : t = expireParked c n s) :
    t.ctx c = (s.ctx c).freed ∧ OtherContextsKept s t c ∧
      t.parks = { s.parks with list := s.parks.list.filter fun e => e.ticket ≠ n } ∧
      (AccountsOrdered s → s.reservation c = none → ∀ j, t.account j = accountLeft s c (referredId s c) 0 j) := by
  rw [expireParked_eq] at ht
  have hctxs : t.ctxs = (s.setCtx c (s.ctx c).freed).ctxs := by rw [ht, raise_ctxs, unparked_ctxs]
  refine ⟨?_, fun d hd => ?_, ?_, fun hord hnone j => ?_⟩
  · rw [ctx_congr hctxs, ctx_setCtx_same]
  · rw [ctx_congr hctxs, ctx_setCtx_ne _ _ hd]
  · rw [ht, raise_parks, unparked, freeCtx_parks, unlist_parks]
    simp
  · have hacc : t.accounts = (dropReferenceOf c (removeClaimsOf c s)).accounts := by
      rw [ht, raise_accounts, unparked, freeCtx_accounts]; rfl
    rw [account_congr hacc]
    exact dropReferenceOf_account (by rw [withoutHold_absent hnone]; simp) (ctx_congr (by simp) c) hord j

/-- The claims and the conditions after a parked basket has expired, and what the expiry leaves unchanged (R91, R155). -/
theorem expireParked_raises {s t : State} {c : CtxNo} {n : Nat} (ht : t = expireParked c n s) :
    ClaimsFreed s t c ∧
      t.cond .parkExpired = { pending := true, detail := { (s.cond .parkExpired).detail with ticket := n } } ∧
      t.conds.mask = s.conds.mask ∧ (∀ d, d ≠ .parkExpired → d ≠ .claimsFull → t.cond d = s.cond d) ∧
      t.notices = noticesAfter s .parkExpired s.notices ∧
      t = { s with ctxs := t.ctxs, parks := t.parks, claims := t.claims, accounts := t.accounts, conds := t.conds
                   notices := t.notices } := by
  rw [expireParked_eq] at ht
  have hconds := unparked_conds c n s
  have hfull : t.cond .claimsFull = (removeClaimsOf c s).cond .claimsFull := by
    rw [ht, raise_cond_ne _ _ _ (by decide), cond_congr hconds]
  have hexpired : (unparked c n s).cond .parkExpired = s.cond .parkExpired :=
    (cond_congr hconds _).trans (removeClaimsOf_cond_ne c s (by decide))
  have hmask : (unparked c n s).conds.mask = s.conds.mask := by rw [hconds, removeClaimsOf_mask]
  have hended := removeClaimsOf_conds c s
  refine ⟨⟨?_, fun hex => ?_, fun hno => ?_⟩, ?_, ?_, fun d h1 h2 => ?_, ?_, ?_⟩
  · rw [ht, raise_claims, unparked, freeCtx_claims]
    show (dropReferenceOf c (removeClaimsOf c s)).claims = _
    rw [dropReferenceOf_claims, removeClaimsOf_claims]
  · rw [hfull, cond_congr (hended.trans (if_pos hex))]
    exact cond_setCond_same ..
  · rw [hfull, cond_congr (hended.trans (if_neg fun ⟨e, he, hm⟩ => hno e he hm))]
  · rw [ht, raise_cond_same, hexpired]
  · rw [ht, raise_mask, hmask]
  · rw [ht, raise_cond_ne _ _ _ h1, cond_congr hconds, removeClaimsOf_cond_ne c s h2]
  · rw [ht, raise_notices, noticesAfter_of hmask hexpired]
    simp [unparked, unlist]
  · rw [ht]
    apply State.ext <;> simp [unparked, unlist]

/-! ### The warning of an idle lane (R159) -/

theorem warnIdle_warns {s t : State} {l : LaneNo} (ht : t = warnIdle l s) :
    t.lane l = { s.lane l with
      idleStage := if s.config.idleTime = 0 then 0 else 1, idleTimer := idleStart s } ∧ OtherLanesKept s t l ∧
    t.cond .laneIdle = { pending := true
                         detail := { (s.cond .laneIdle).detail with
                          lanes := (s.cond .laneIdle).detail.lanes ||| laneBit l } } ∧
    OtherConditionsKept s t .laneIdle ∧ t.notices = noticesAfter s .laneIdle s.notices ∧
    t = { s with lanes := t.lanes, conds := t.conds, notices := t.notices } := by
  unfold warnIdle at ht
  have hconds : (startIdle 1 l s).conds = s.conds := startIdle_conds ..
  have hlanes : t.lanes = (startIdle 1 l s).lanes := by rw [ht, raise_lanes]
  refine ⟨?_, fun m hm => ?_, ?_, ?_, ?_, ?_⟩
  · rw [lane_congr hlanes, startIdle_lane, if_pos rfl]
  · rw [lane_congr hlanes, startIdle_lane, if_neg hm]
  · rw [ht, raise_cond_same, cond_congr hconds]; rfl
  · rw [ht]; exact raise_others hconds ..
  · rw [ht, raise_notices, noticesAfter_congr hconds, startIdle_notices]
  · rw [ht]
    apply State.ext <;> simp

/-! ### The automatic park (R160) -/

section
variable {s u t : State} {l : LaneNo} {c : CtxNo} {a : Attachment}

/-- The records of an automatic park are those of a park. -/
theorem parkBasket_parks (hsound : BasketsSound s) (ha : (s.ctx c).place = .attached a) (hl : a.lane = l)
    (hu : u = (parkBasket l c s).1) : BasketParked s u l c a s.parkTicket := by
  have hagree : BasketsAgree s := (basketsSound_iff s).1 hsound
  obtain ⟨hpin, -, -⟩ := parkBasket_pinReleased ha hl
  rw [← hu] at hpin
  rw [parkBasket_eq ha hl] at hu
  have hctxs : u.ctxs = (s.setCtx c (parkedContext c s.parkTicket s)).ctxs := by rw [hu]
  have hlanes : u.lanes = (s.setLane l (vacated (s.lane l))).lanes := by rw [hu]
  refine ⟨hagree.parkTicket_chosen, ?_, fun d hd => ?_, by rw [hu], ?_, fun m hm => ?_, hpin, by rw [hu],
    account_withoutHold (by rw [hu])⟩
  · rw [ctx_congr hctxs, ctx_setCtx_same]; rfl
  · rw [ctx_congr hctxs, ctx_setCtx_ne _ _ hd]
  · rw [lane_congr hlanes, lane_setLane_same]
  · rw [lane_congr hlanes, lane_setLane_ne _ _ hm]

/-- A release of a pin is seen through a later state with the banks and the condition of the drain. -/
theorem PinReleased.later {b : BankNo} (h : PinReleased s u b) (hb : t.banks = u.banks)
    (hc : t.cond .bankDrained = u.cond .bankDrained) : PinReleased s t b := by
  simpa only [PinReleased, bank_congr hb, hc] using h

/-- A park is seen through a later state with its tables and the condition of the drain. -/
theorem BasketParked.later {ticket : Nat} (h : BasketParked s u l c a ticket) (hx : t.ctxs = u.ctxs)
    (hp : t.parks = u.parks) (hy : t.lanes = u.lanes) (hb : t.banks = u.banks)
    (hc : t.cond .bankDrained = u.cond .bankDrained) (hs : t.sched = u.sched) (hacc : t.accounts = u.accounts) :
    BasketParked s t l c a ticket := by
  obtain ⟨hticket, hctx, hco, hparks, hlane, hlo, hpin, hsched, haccount⟩ := h
  exact ⟨hticket, (ctx_congr hx c).trans hctx, fun d hd => (ctx_congr hx d).trans (hco d hd), hp.trans hparks,
    (lane_congr hy l).trans hlane, fun m hm => (lane_congr hy m).trans (hlo m hm), hpin.later hb hc, hs.trans hsched,
    fun j => (account_congr hacc j).trans (haccount j)⟩

/-- The automatic park raises LANE_IDLE with its ticket on the state the park leaves. -/
theorem autoPark_eq (l : LaneNo) (c : CtxNo) (s : State) : autoPark l c s =
    raise .laneIdle (fun d => { d.addLanes (laneBit l) with ticket := s.parkTicket }) (parkBasket l c s).1 := by
  unfold autoPark
  dsimp only
  rw [parkBasket_answer]

theorem autoPark_parks (hsound : BasketsSound s) (ha : (s.ctx c).place = .attached a) (hl : a.lane = l)
    (ht : t = settleClaims (autoPark l c s)) :
    BasketParked s t l c a s.parkTicket ∧
      t.cond .laneIdle = { pending := true
                           detail := { (s.cond .laneIdle).detail with
                            lanes := (s.cond .laneIdle).detail.lanes ||| laneBit l, ticket := s.parkTicket } } ∧
      t.conds.mask = s.conds.mask ∧ (∀ d, d ≠ .laneIdle → d ≠ .bankDrained → t.cond d = s.cond d) ∧
      t.notices = noticesAfter s .laneIdle (drainNotices s a.bank) ∧
      ClaimsSettled { s with ctxs := t.ctxs, lanes := t.lanes, accounts := t.accounts, conds := t.conds
                             notices := t.notices, banks := t.banks, parks := t.parks, sched := t.sched } t := by
  rw [autoPark_eq] at ht
  obtain ⟨u, hu⟩ : ∃ u, u = (parkBasket l c s).1 := ⟨_, rfl⟩
  obtain ⟨-, ⟨hmask, hcond⟩, hnotices⟩ := parkBasket_pinReleased ha hl
  have hparked := parkBasket_parks hsound ha hl hu
  rw [← hu] at ht hmask hcond hnotices
  have hidle : u.cond .laneIdle = s.cond .laneIdle := hcond _ (by decide)
  obtain ⟨v, hv⟩ : ∃ v, v = raise .laneIdle (fun d => { d.addLanes (laneBit l) with ticket := s.parkTicket }) u :=
    ⟨_, rfl⟩
  rw [← hv] at ht
  have hconds : t.conds = v.conds := by rw [ht, settleClaims_conds]
  refine ⟨?_, ?_, ?_, fun d h1 h2 => ?_, ?_, ?_⟩
  · refine hparked.later ?_ ?_ ?_ ?_ ?_ ?_ ?_
    case refine_5 => rw [cond_congr hconds, hv, raise_cond_ne _ _ _ (by decide)]
    all_goals rw [ht, hv]; simp
  · rw [cond_congr hconds, hv, raise_cond_same, hidle]; rfl
  · rw [hconds, hv, raise_mask, hmask]
  · rw [cond_congr hconds, hv, raise_cond_ne _ _ _ h1, hcond d h2]
  · rw [ht, settleClaims_notices, hv, raise_notices, noticesAfter_of hmask hidle, hnotices]
  · rw [ht]
    refine .of_eq ?_
    rw [parkBasket_eq ha hl] at hu
    apply State.ext <;> simp
    all_goals rw [hv]; simp
    all_goals rw [hu]

end

/-- Settles O52: each expiry by the records, conditions and notices it leaves, and a timer that is not due by the step
that does nothing. -/
theorem basketTimersExpire : Obligations.BasketTimersExpire := by
  intro s hs hsound hord
  have hlaneOf : ∀ {l : LaneNo} {c : CtxNo} {a : Attachment}, (s.lane l).ctx = some c →
      (s.ctx c).place = .attached a → a.lane = l := fun {l c a} hc ha => by
    obtain ⟨hnamed, -⟩ := hsound
    obtain ⟨b, hb, hl⟩ := hnamed l c hc
    rw [ha] at hb
    cases hb
    exact hl
  refine ⟨fun c d a hd ht ha => ?_, fun c p hp ht => ?_, fun l hn hd => ⟨_, idleWarning_due hs hn hd, warnIdle_warns rfl⟩,
    fun l c a hn hd hc ha => ⟨_, _, autoPark_due hs hn hd hc, autoPark_parks hsound ha (hlaneOf hc ha) rfl⟩,
    fun c h => reservationExpiry_waits h, fun c h => parkExpiry_waits h, fun l h => idleWarning_waits h,
    fun l h => autoPark_waits h⟩
  · obtain ⟨hx, hco, hy, hlo, hacc⟩ := expireReservation_records ha rfl
    exact ⟨_, reservationExpiry_due hs hd ht, hx, hco, hy, hlo, hacc, expireReservation_raises ha rfl⟩
  · obtain ⟨hx, hco, hparks, hacc⟩ := expireParked_records (s := s) (c := c) (n := p.ticket) rfl
    obtain ⟨hfreed, hrest⟩ := expireParked_raises (s := s) (c := c) (n := p.ticket) rfl
    exact ⟨_, parkExpiry_due hs hp ht, hfreed, hacc hord, hx, hco, hparks, hrest⟩

end Sys2Proof.Machine
